-- ==== Sys2Proof/Word.lean ====
section
/-! DEFINITION. The word types of the machine (00_scope.md R6): bytes, 16-bit addresses, and memory as plain data. -/

namespace Sys2Proof

/-- An 8-bit quantity: A, X, Y, S, every bus transfer (R6). -/
abbrev Byte := BitVec 8

/-- A 16-bit bus address; also the program counter (R6). -/
abbrev Addr := BitVec 16

/-- Bytes by address: strictly rising addresses, no entry equal to what an unlisted address reads as
(`Memory.unlisted`). Main memory (R41) and the three ROM images (R9) are held this way. -/
abbrev Memory := List Host.Cell

end Sys2Proof
end

