-- ==== Sys2Proof/Machine/Bits.lean ====
section
/-! DEFINITION. Bit fields, byte order and sign extension (00_scope.md R10; 20_memory.md R58; 30_encoding.md R93). -/

namespace Sys2Proof

/-- `v[7:0]` of a 16-bit value. -/
def loByte (w : Addr) : Byte := w.setWidth 8

/-- `v[15:8]` of a 16-bit value: its page (R12). -/
def hiByte (w : Addr) : Byte := (w >>> 8).setWidth 8

/-- `(h << 8) | l` (R10). -/
def wordOf (h l : Byte) : Addr := h ++ l

/-- `zext_16(v)` (R10). -/
def zext16 (v : Byte) : Addr := v.setWidth 16

/-- `sext_16(v)` (R10, R93). -/
def sext16 (v : Byte) : Addr := v.signExtend 16

/-- The stack byte that S names: `0x0100 | S` (R25). -/
def stackAddr (sp : Byte) : Addr := 0x0100#16 ||| zext16 sp

/-- A flag as the number 0 or 1. -/
def bitNat (b : Bool) : Nat := if b then 1 else 0

end Sys2Proof
end

