-- ==== Sys2Proof/Syntax.lean ====
section
/-! DEFINITION. The instruction set: one constructor per row of spec/opcode_table.json (30_encoding.md R98), 151 in all,
with its operand byte or 16-bit operand (R91, R93). Beside it, the vocabulary of the table: mnemonics, modes, operand forms. -/

namespace Sys2Proof

/-- An instruction with its operand. `imm`, `zp` and `rel` are byte 1; `addr` and `ptr` are `byte2 || byte1` (R93). -/
inductive Instr where
  -- Loads, stores and transfers (41_load_store_transfer.md)
  | ldaIndx (zp : Byte)
  | ldaZp (zp : Byte)
  | ldaImm (imm : Byte)
  | ldaAbs (addr : Addr)
  | ldaIndy (zp : Byte)
  | ldaZpx (zp : Byte)
  | ldaAbsy (addr : Addr)
  | ldaAbsx (addr : Addr)
  | ldxImm (imm : Byte)
  | ldxZp (zp : Byte)
  | ldxAbs (addr : Addr)
  | ldxZpy (zp : Byte)
  | ldxAbsy (addr : Addr)
  | ldyImm (imm : Byte)
  | ldyZp (zp : Byte)
  | ldyAbs (addr : Addr)
  | ldyZpx (zp : Byte)
  | ldyAbsx (addr : Addr)
  | staIndx (zp : Byte)
  | staZp (zp : Byte)
  | staAbs (addr : Addr)
  | staIndy (zp : Byte)
  | staZpx (zp : Byte)
  | staAbsy (addr : Addr)
  | staAbsx (addr : Addr)
  | stxZp (zp : Byte)
  | stxAbs (addr : Addr)
  | stxZpy (zp : Byte)
  | styZp (zp : Byte)
  | styAbs (addr : Addr)
  | styZpx (zp : Byte)
  | tax
  | tay
  | txa
  | tya
  | tsx
  | txs
  -- Stack (42_stack.md)
  | pha
  | php
  | pla
  | plp
  -- Arithmetic, compare, increment and decrement (43_arithmetic.md)
  | adcIndx (zp : Byte)
  | adcZp (zp : Byte)
  | adcImm (imm : Byte)
  | adcAbs (addr : Addr)
  | adcIndy (zp : Byte)
  | adcZpx (zp : Byte)
  | adcAbsy (addr : Addr)
  | adcAbsx (addr : Addr)
  | sbcIndx (zp : Byte)
  | sbcZp (zp : Byte)
  | sbcImm (imm : Byte)
  | sbcAbs (addr : Addr)
  | sbcIndy (zp : Byte)
  | sbcZpx (zp : Byte)
  | sbcAbsy (addr : Addr)
  | sbcAbsx (addr : Addr)
  | cmpIndx (zp : Byte)
  | cmpZp (zp : Byte)
  | cmpImm (imm : Byte)
  | cmpAbs (addr : Addr)
  | cmpIndy (zp : Byte)
  | cmpZpx (zp : Byte)
  | cmpAbsy (addr : Addr)
  | cmpAbsx (addr : Addr)
  | cpxImm (imm : Byte)
  | cpxZp (zp : Byte)
  | cpxAbs (addr : Addr)
  | cpyImm (imm : Byte)
  | cpyZp (zp : Byte)
  | cpyAbs (addr : Addr)
  | incZp (zp : Byte)
  | incAbs (addr : Addr)
  | incZpx (zp : Byte)
  | incAbsx (addr : Addr)
  | decZp (zp : Byte)
  | decAbs (addr : Addr)
  | decZpx (zp : Byte)
  | decAbsx (addr : Addr)
  | inx
  | iny
  | dex
  | dey
  -- Logic and shifts (44_logic_shift.md)
  | andIndx (zp : Byte)
  | andZp (zp : Byte)
  | andImm (imm : Byte)
  | andAbs (addr : Addr)
  | andIndy (zp : Byte)
  | andZpx (zp : Byte)
  | andAbsy (addr : Addr)
  | andAbsx (addr : Addr)
  | oraIndx (zp : Byte)
  | oraZp (zp : Byte)
  | oraImm (imm : Byte)
  | oraAbs (addr : Addr)
  | oraIndy (zp : Byte)
  | oraZpx (zp : Byte)
  | oraAbsy (addr : Addr)
  | oraAbsx (addr : Addr)
  | eorIndx (zp : Byte)
  | eorZp (zp : Byte)
  | eorImm (imm : Byte)
  | eorAbs (addr : Addr)
  | eorIndy (zp : Byte)
  | eorZpx (zp : Byte)
  | eorAbsy (addr : Addr)
  | eorAbsx (addr : Addr)
  | bitZp (zp : Byte)
  | bitAbs (addr : Addr)
  | aslZp (zp : Byte)
  | aslAcc
  | aslAbs (addr : Addr)
  | aslZpx (zp : Byte)
  | aslAbsx (addr : Addr)
  | lsrZp (zp : Byte)
  | lsrAcc
  | lsrAbs (addr : Addr)
  | lsrZpx (zp : Byte)
  | lsrAbsx (addr : Addr)
  | rolZp (zp : Byte)
  | rolAcc
  | rolAbs (addr : Addr)
  | rolZpx (zp : Byte)
  | rolAbsx (addr : Addr)
  | rorZp (zp : Byte)
  | rorAcc
  | rorAbs (addr : Addr)
  | rorZpx (zp : Byte)
  | rorAbsx (addr : Addr)
  -- Control transfer (45_control_transfer.md)
  | bcc (rel : Byte)
  | bcs (rel : Byte)
  | beq (rel : Byte)
  | bne (rel : Byte)
  | bmi (rel : Byte)
  | bpl (rel : Byte)
  | bvc (rel : Byte)
  | bvs (rel : Byte)
  | jmpAbs (addr : Addr)
  | jmpInd (ptr : Addr)
  | jsr (addr : Addr)
  | rts
  | rti
  | brk
  -- Flags and NOP (46_flags_nop.md)
  | clc
  | sec
  | cli
  | sei
  | cld
  | sed
  | clv
  | nop
deriving DecidableEq, Repr

/-- The 56 mnemonics (R3, R98). -/
inductive Mnemonic where
  | LDA | LDX | LDY | STA | STX | STY | TAX | TAY | TXA | TYA | TSX | TXS
  | PHA | PHP | PLA | PLP | ADC | SBC | CMP | CPX | CPY | INC | DEC | INX
  | INY | DEX | DEY | AND | ORA | EOR | BIT | ASL | LSR | ROL | ROR | BCC
  | BCS | BEQ | BNE | BMI | BPL | BVC | BVS | JMP | JSR | RTS | RTI | BRK
  | CLC | SEC | CLI | SEI | CLD | SED | CLV | NOP
deriving DecidableEq, Repr

/-- The 13 addressing modes (R91). -/
inductive AddrMode where
  | IMP | ACC | IMM | ZP | ZPX | ZPY | ABS | ABSX | ABSY | IND | INDX | INDY | REL
deriving DecidableEq, Repr

/-- The eight modes that name a data byte in memory, with their operand (R114 to R119, R121, R122). -/
inductive MemForm where
  | zp (zp : Byte)
  | zpx (zp : Byte)
  | zpy (zp : Byte)
  | abs (addr : Addr)
  | absx (addr : Addr)
  | absy (addr : Addr)
  | indx (zp : Byte)
  | indy (zp : Byte)
deriving DecidableEq, Repr

/-- The operand of an instruction as its mode writes it (R91). -/
inductive Form where
  | imp
  | acc
  | imm (imm : Byte)
  | mem (m : MemForm)
  | ind (ptr : Addr)
  | rel (rel : Byte)
deriving DecidableEq, Repr

/-- One row of the opcode table with its operand in place (R90 "Instruction Descriptor", R98). `pagePenalty` is the column
"+1 on page cross". -/
structure Descriptor where
  opcode : Byte
  mnemonic : Mnemonic
  form : Form
  baseCycles : Nat
  pagePenalty : Bool
deriving DecidableEq, Repr

end Sys2Proof
end

