-- ==== Sys2Proof/Decode.lean ====
section
/-! DEFINITION. The opcode table (30_encoding.md R98), the decoder over the opcode map (R97) and the encoder. The decoder is
total on any bytes and rejects by name. -/

namespace Sys2Proof

/-- Why bytes do not decode. `illegalOpcode`: one of the 105 illegal bytes (R94). `truncated`: fewer operand bytes than the mode
has (R91); the machine always has them, since it fetches them. `empty`: no byte at all. -/
inductive DecodeError where
  | illegalOpcode (opcode : Byte)
  | truncated (opcode : Byte)
  | empty
deriving DecidableEq, Repr

/-- What an opcode byte announces: an instruction of 1 byte, or one that takes 1 or 2 operand bytes (R91). -/
inductive Shape where
  | bare (i : Instr)
  | withByte (mk : Byte → Instr)
  | withWord (mk : Addr → Instr)

/-- The length in bytes (R91). -/
def Shape.length : Shape → Nat
  | .bare _ => 1
  | .withByte _ => 2
  | .withWord _ => 3

/-! ### The opcode map of R97: one function per row (high nibble), its argument the column (low nibble). -/

/-- Row 0x of R97. -/
def opRow0 : Nat → Option Shape
  | 0x0 => some (.bare .brk)
  | 0x1 => some (.withByte .oraIndx)
  | 0x5 => some (.withByte .oraZp)
  | 0x6 => some (.withByte .aslZp)
  | 0x8 => some (.bare .php)
  | 0x9 => some (.withByte .oraImm)
  | 0xA => some (.bare .aslAcc)
  | 0xD => some (.withWord .oraAbs)
  | 0xE => some (.withWord .aslAbs)
  | _ => none

/-- Row 1x of R97. -/
def opRow1 : Nat → Option Shape
  | 0x0 => some (.withByte .bpl)
  | 0x1 => some (.withByte .oraIndy)
  | 0x5 => some (.withByte .oraZpx)
  | 0x6 => some (.withByte .aslZpx)
  | 0x8 => some (.bare .clc)
  | 0x9 => some (.withWord .oraAbsy)
  | 0xD => some (.withWord .oraAbsx)
  | 0xE => some (.withWord .aslAbsx)
  | _ => none

/-- Row 2x of R97. -/
def opRow2 : Nat → Option Shape
  | 0x0 => some (.withWord .jsr)
  | 0x1 => some (.withByte .andIndx)
  | 0x4 => some (.withByte .bitZp)
  | 0x5 => some (.withByte .andZp)
  | 0x6 => some (.withByte .rolZp)
  | 0x8 => some (.bare .plp)
  | 0x9 => some (.withByte .andImm)
  | 0xA => some (.bare .rolAcc)
  | 0xC => some (.withWord .bitAbs)
  | 0xD => some (.withWord .andAbs)
  | 0xE => some (.withWord .rolAbs)
  | _ => none

/-- Row 3x of R97. -/
def opRow3 : Nat → Option Shape
  | 0x0 => some (.withByte .bmi)
  | 0x1 => some (.withByte .andIndy)
  | 0x5 => some (.withByte .andZpx)
  | 0x6 => some (.withByte .rolZpx)
  | 0x8 => some (.bare .sec)
  | 0x9 => some (.withWord .andAbsy)
  | 0xD => some (.withWord .andAbsx)
  | 0xE => some (.withWord .rolAbsx)
  | _ => none

/-- Row 4x of R97. -/
def opRow4 : Nat → Option Shape
  | 0x0 => some (.bare .rti)
  | 0x1 => some (.withByte .eorIndx)
  | 0x5 => some (.withByte .eorZp)
  | 0x6 => some (.withByte .lsrZp)
  | 0x8 => some (.bare .pha)
  | 0x9 => some (.withByte .eorImm)
  | 0xA => some (.bare .lsrAcc)
  | 0xC => some (.withWord .jmpAbs)
  | 0xD => some (.withWord .eorAbs)
  | 0xE => some (.withWord .lsrAbs)
  | _ => none

/-- Row 5x of R97. -/
def opRow5 : Nat → Option Shape
  | 0x0 => some (.withByte .bvc)
  | 0x1 => some (.withByte .eorIndy)
  | 0x5 => some (.withByte .eorZpx)
  | 0x6 => some (.withByte .lsrZpx)
  | 0x8 => some (.bare .cli)
  | 0x9 => some (.withWord .eorAbsy)
  | 0xD => some (.withWord .eorAbsx)
  | 0xE => some (.withWord .lsrAbsx)
  | _ => none

/-- Row 6x of R97. -/
def opRow6 : Nat → Option Shape
  | 0x0 => some (.bare .rts)
  | 0x1 => some (.withByte .adcIndx)
  | 0x5 => some (.withByte .adcZp)
  | 0x6 => some (.withByte .rorZp)
  | 0x8 => some (.bare .pla)
  | 0x9 => some (.withByte .adcImm)
  | 0xA => some (.bare .rorAcc)
  | 0xC => some (.withWord .jmpInd)
  | 0xD => some (.withWord .adcAbs)
  | 0xE => some (.withWord .rorAbs)
  | _ => none

/-- Row 7x of R97. -/
def opRow7 : Nat → Option Shape
  | 0x0 => some (.withByte .bvs)
  | 0x1 => some (.withByte .adcIndy)
  | 0x5 => some (.withByte .adcZpx)
  | 0x6 => some (.withByte .rorZpx)
  | 0x8 => some (.bare .sei)
  | 0x9 => some (.withWord .adcAbsy)
  | 0xD => some (.withWord .adcAbsx)
  | 0xE => some (.withWord .rorAbsx)
  | _ => none

/-- Row 8x of R97. -/
def opRow8 : Nat → Option Shape
  | 0x1 => some (.withByte .staIndx)
  | 0x4 => some (.withByte .styZp)
  | 0x5 => some (.withByte .staZp)
  | 0x6 => some (.withByte .stxZp)
  | 0x8 => some (.bare .dey)
  | 0xA => some (.bare .txa)
  | 0xC => some (.withWord .styAbs)
  | 0xD => some (.withWord .staAbs)
  | 0xE => some (.withWord .stxAbs)
  | _ => none

/-- Row 9x of R97. -/
def opRow9 : Nat → Option Shape
  | 0x0 => some (.withByte .bcc)
  | 0x1 => some (.withByte .staIndy)
  | 0x4 => some (.withByte .styZpx)
  | 0x5 => some (.withByte .staZpx)
  | 0x6 => some (.withByte .stxZpy)
  | 0x8 => some (.bare .tya)
  | 0x9 => some (.withWord .staAbsy)
  | 0xA => some (.bare .txs)
  | 0xD => some (.withWord .staAbsx)
  | _ => none

/-- Row Ax of R97. -/
def opRowA : Nat → Option Shape
  | 0x0 => some (.withByte .ldyImm)
  | 0x1 => some (.withByte .ldaIndx)
  | 0x2 => some (.withByte .ldxImm)
  | 0x4 => some (.withByte .ldyZp)
  | 0x5 => some (.withByte .ldaZp)
  | 0x6 => some (.withByte .ldxZp)
  | 0x8 => some (.bare .tay)
  | 0x9 => some (.withByte .ldaImm)
  | 0xA => some (.bare .tax)
  | 0xC => some (.withWord .ldyAbs)
  | 0xD => some (.withWord .ldaAbs)
  | 0xE => some (.withWord .ldxAbs)
  | _ => none

/-- Row Bx of R97. -/
def opRowB : Nat → Option Shape
  | 0x0 => some (.withByte .bcs)
  | 0x1 => some (.withByte .ldaIndy)
  | 0x4 => some (.withByte .ldyZpx)
  | 0x5 => some (.withByte .ldaZpx)
  | 0x6 => some (.withByte .ldxZpy)
  | 0x8 => some (.bare .clv)
  | 0x9 => some (.withWord .ldaAbsy)
  | 0xA => some (.bare .tsx)
  | 0xC => some (.withWord .ldyAbsx)
  | 0xD => some (.withWord .ldaAbsx)
  | 0xE => some (.withWord .ldxAbsy)
  | _ => none

/-- Row Cx of R97. -/
def opRowC : Nat → Option Shape
  | 0x0 => some (.withByte .cpyImm)
  | 0x1 => some (.withByte .cmpIndx)
  | 0x4 => some (.withByte .cpyZp)
  | 0x5 => some (.withByte .cmpZp)
  | 0x6 => some (.withByte .decZp)
  | 0x8 => some (.bare .iny)
  | 0x9 => some (.withByte .cmpImm)
  | 0xA => some (.bare .dex)
  | 0xC => some (.withWord .cpyAbs)
  | 0xD => some (.withWord .cmpAbs)
  | 0xE => some (.withWord .decAbs)
  | _ => none

/-- Row Dx of R97. -/
def opRowD : Nat → Option Shape
  | 0x0 => some (.withByte .bne)
  | 0x1 => some (.withByte .cmpIndy)
  | 0x5 => some (.withByte .cmpZpx)
  | 0x6 => some (.withByte .decZpx)
  | 0x8 => some (.bare .cld)
  | 0x9 => some (.withWord .cmpAbsy)
  | 0xD => some (.withWord .cmpAbsx)
  | 0xE => some (.withWord .decAbsx)
  | _ => none

/-- Row Ex of R97. -/
def opRowE : Nat → Option Shape
  | 0x0 => some (.withByte .cpxImm)
  | 0x1 => some (.withByte .sbcIndx)
  | 0x4 => some (.withByte .cpxZp)
  | 0x5 => some (.withByte .sbcZp)
  | 0x6 => some (.withByte .incZp)
  | 0x8 => some (.bare .inx)
  | 0x9 => some (.withByte .sbcImm)
  | 0xA => some (.bare .nop)
  | 0xC => some (.withWord .cpxAbs)
  | 0xD => some (.withWord .sbcAbs)
  | 0xE => some (.withWord .incAbs)
  | _ => none

/-- Row Fx of R97. -/
def opRowF : Nat → Option Shape
  | 0x0 => some (.withByte .beq)
  | 0x1 => some (.withByte .sbcIndy)
  | 0x5 => some (.withByte .sbcZpx)
  | 0x6 => some (.withByte .incZpx)
  | 0x8 => some (.bare .sed)
  | 0x9 => some (.withWord .sbcAbsy)
  | 0xD => some (.withWord .sbcAbsx)
  | 0xE => some (.withWord .incAbsx)
  | _ => none

/-- The opcode map (R97): `none` for the 105 illegal bytes (R94). -/
def shapeOf (op : Byte) : Option Shape :=
  match op.toNat / 16 with
  | 0x0 => opRow0 (op.toNat % 16)
  | 0x1 => opRow1 (op.toNat % 16)
  | 0x2 => opRow2 (op.toNat % 16)
  | 0x3 => opRow3 (op.toNat % 16)
  | 0x4 => opRow4 (op.toNat % 16)
  | 0x5 => opRow5 (op.toNat % 16)
  | 0x6 => opRow6 (op.toNat % 16)
  | 0x7 => opRow7 (op.toNat % 16)
  | 0x8 => opRow8 (op.toNat % 16)
  | 0x9 => opRow9 (op.toNat % 16)
  | 0xA => opRowA (op.toNat % 16)
  | 0xB => opRowB (op.toNat % 16)
  | 0xC => opRowC (op.toNat % 16)
  | 0xD => opRowD (op.toNat % 16)
  | 0xE => opRowE (op.toNat % 16)
  | _ => opRowF (op.toNat % 16)

/-- The length of the instruction an opcode byte begins (R91, R96), `none` when the byte is illegal. -/
def opcodeLength (op : Byte) : Option Nat := (shapeOf op).map Shape.length

/-- Decode one instruction from bytes in address order; answer it with the bytes after it (R90, R93, R110). -/
def decode : List Byte → Except DecodeError (Instr × List Byte)
  | [] => .error .empty
  | op :: rest =>
    match shapeOf op with
    | none => .error (.illegalOpcode op)
    | some (.bare i) => .ok (i, rest)
    | some (.withByte mk) =>
      match rest with
      | b1 :: rest => .ok (mk b1, rest)
      | [] => .error (.truncated op)
    | some (.withWord mk) =>
      match rest with
      | b1 :: b2 :: rest => .ok (mk (wordOf b2 b1), rest)
      | _ => .error (.truncated op)

/-- The table of R98: opcode, mnemonic, operand form, base cycles, page-crossing penalty. -/
def Instr.descriptor : Instr → Descriptor
  | .brk => ⟨0x00#8, .BRK, .imp, 7, false⟩
  | .oraIndx zp => ⟨0x01#8, .ORA, .mem (.indx zp), 6, false⟩
  | .oraZp zp => ⟨0x05#8, .ORA, .mem (.zp zp), 3, false⟩
  | .aslZp zp => ⟨0x06#8, .ASL, .mem (.zp zp), 5, false⟩
  | .php => ⟨0x08#8, .PHP, .imp, 3, false⟩
  | .oraImm imm => ⟨0x09#8, .ORA, .imm imm, 2, false⟩
  | .aslAcc => ⟨0x0A#8, .ASL, .acc, 2, false⟩
  | .oraAbs addr => ⟨0x0D#8, .ORA, .mem (.abs addr), 4, false⟩
  | .aslAbs addr => ⟨0x0E#8, .ASL, .mem (.abs addr), 6, false⟩
  | .bpl rel => ⟨0x10#8, .BPL, .rel rel, 2, false⟩
  | .oraIndy zp => ⟨0x11#8, .ORA, .mem (.indy zp), 5, true⟩
  | .oraZpx zp => ⟨0x15#8, .ORA, .mem (.zpx zp), 4, false⟩
  | .aslZpx zp => ⟨0x16#8, .ASL, .mem (.zpx zp), 6, false⟩
  | .clc => ⟨0x18#8, .CLC, .imp, 2, false⟩
  | .oraAbsy addr => ⟨0x19#8, .ORA, .mem (.absy addr), 4, true⟩
  | .oraAbsx addr => ⟨0x1D#8, .ORA, .mem (.absx addr), 4, true⟩
  | .aslAbsx addr => ⟨0x1E#8, .ASL, .mem (.absx addr), 7, false⟩
  | .jsr addr => ⟨0x20#8, .JSR, .mem (.abs addr), 6, false⟩
  | .andIndx zp => ⟨0x21#8, .AND, .mem (.indx zp), 6, false⟩
  | .bitZp zp => ⟨0x24#8, .BIT, .mem (.zp zp), 3, false⟩
  | .andZp zp => ⟨0x25#8, .AND, .mem (.zp zp), 3, false⟩
  | .rolZp zp => ⟨0x26#8, .ROL, .mem (.zp zp), 5, false⟩
  | .plp => ⟨0x28#8, .PLP, .imp, 4, false⟩
  | .andImm imm => ⟨0x29#8, .AND, .imm imm, 2, false⟩
  | .rolAcc => ⟨0x2A#8, .ROL, .acc, 2, false⟩
  | .bitAbs addr => ⟨0x2C#8, .BIT, .mem (.abs addr), 4, false⟩
  | .andAbs addr => ⟨0x2D#8, .AND, .mem (.abs addr), 4, false⟩
  | .rolAbs addr => ⟨0x2E#8, .ROL, .mem (.abs addr), 6, false⟩
  | .bmi rel => ⟨0x30#8, .BMI, .rel rel, 2, false⟩
  | .andIndy zp => ⟨0x31#8, .AND, .mem (.indy zp), 5, true⟩
  | .andZpx zp => ⟨0x35#8, .AND, .mem (.zpx zp), 4, false⟩
  | .rolZpx zp => ⟨0x36#8, .ROL, .mem (.zpx zp), 6, false⟩
  | .sec => ⟨0x38#8, .SEC, .imp, 2, false⟩
  | .andAbsy addr => ⟨0x39#8, .AND, .mem (.absy addr), 4, true⟩
  | .andAbsx addr => ⟨0x3D#8, .AND, .mem (.absx addr), 4, true⟩
  | .rolAbsx addr => ⟨0x3E#8, .ROL, .mem (.absx addr), 7, false⟩
  | .rti => ⟨0x40#8, .RTI, .imp, 6, false⟩
  | .eorIndx zp => ⟨0x41#8, .EOR, .mem (.indx zp), 6, false⟩
  | .eorZp zp => ⟨0x45#8, .EOR, .mem (.zp zp), 3, false⟩
  | .lsrZp zp => ⟨0x46#8, .LSR, .mem (.zp zp), 5, false⟩
  | .pha => ⟨0x48#8, .PHA, .imp, 3, false⟩
  | .eorImm imm => ⟨0x49#8, .EOR, .imm imm, 2, false⟩
  | .lsrAcc => ⟨0x4A#8, .LSR, .acc, 2, false⟩
  | .jmpAbs addr => ⟨0x4C#8, .JMP, .mem (.abs addr), 3, false⟩
  | .eorAbs addr => ⟨0x4D#8, .EOR, .mem (.abs addr), 4, false⟩
  | .lsrAbs addr => ⟨0x4E#8, .LSR, .mem (.abs addr), 6, false⟩
  | .bvc rel => ⟨0x50#8, .BVC, .rel rel, 2, false⟩
  | .eorIndy zp => ⟨0x51#8, .EOR, .mem (.indy zp), 5, true⟩
  | .eorZpx zp => ⟨0x55#8, .EOR, .mem (.zpx zp), 4, false⟩
  | .lsrZpx zp => ⟨0x56#8, .LSR, .mem (.zpx zp), 6, false⟩
  | .cli => ⟨0x58#8, .CLI, .imp, 2, false⟩
  | .eorAbsy addr => ⟨0x59#8, .EOR, .mem (.absy addr), 4, true⟩
  | .eorAbsx addr => ⟨0x5D#8, .EOR, .mem (.absx addr), 4, true⟩
  | .lsrAbsx addr => ⟨0x5E#8, .LSR, .mem (.absx addr), 7, false⟩
  | .rts => ⟨0x60#8, .RTS, .imp, 6, false⟩
  | .adcIndx zp => ⟨0x61#8, .ADC, .mem (.indx zp), 6, false⟩
  | .adcZp zp => ⟨0x65#8, .ADC, .mem (.zp zp), 3, false⟩
  | .rorZp zp => ⟨0x66#8, .ROR, .mem (.zp zp), 5, false⟩
  | .pla => ⟨0x68#8, .PLA, .imp, 4, false⟩
  | .adcImm imm => ⟨0x69#8, .ADC, .imm imm, 2, false⟩
  | .rorAcc => ⟨0x6A#8, .ROR, .acc, 2, false⟩
  | .jmpInd ptr => ⟨0x6C#8, .JMP, .ind ptr, 5, false⟩
  | .adcAbs addr => ⟨0x6D#8, .ADC, .mem (.abs addr), 4, false⟩
  | .rorAbs addr => ⟨0x6E#8, .ROR, .mem (.abs addr), 6, false⟩
  | .bvs rel => ⟨0x70#8, .BVS, .rel rel, 2, false⟩
  | .adcIndy zp => ⟨0x71#8, .ADC, .mem (.indy zp), 5, true⟩
  | .adcZpx zp => ⟨0x75#8, .ADC, .mem (.zpx zp), 4, false⟩
  | .rorZpx zp => ⟨0x76#8, .ROR, .mem (.zpx zp), 6, false⟩
  | .sei => ⟨0x78#8, .SEI, .imp, 2, false⟩
  | .adcAbsy addr => ⟨0x79#8, .ADC, .mem (.absy addr), 4, true⟩
  | .adcAbsx addr => ⟨0x7D#8, .ADC, .mem (.absx addr), 4, true⟩
  | .rorAbsx addr => ⟨0x7E#8, .ROR, .mem (.absx addr), 7, false⟩
  | .staIndx zp => ⟨0x81#8, .STA, .mem (.indx zp), 6, false⟩
  | .styZp zp => ⟨0x84#8, .STY, .mem (.zp zp), 3, false⟩
  | .staZp zp => ⟨0x85#8, .STA, .mem (.zp zp), 3, false⟩
  | .stxZp zp => ⟨0x86#8, .STX, .mem (.zp zp), 3, false⟩
  | .dey => ⟨0x88#8, .DEY, .imp, 2, false⟩
  | .txa => ⟨0x8A#8, .TXA, .imp, 2, false⟩
  | .styAbs addr => ⟨0x8C#8, .STY, .mem (.abs addr), 4, false⟩
  | .staAbs addr => ⟨0x8D#8, .STA, .mem (.abs addr), 4, false⟩
  | .stxAbs addr => ⟨0x8E#8, .STX, .mem (.abs addr), 4, false⟩
  | .bcc rel => ⟨0x90#8, .BCC, .rel rel, 2, false⟩
  | .staIndy zp => ⟨0x91#8, .STA, .mem (.indy zp), 6, false⟩
  | .styZpx zp => ⟨0x94#8, .STY, .mem (.zpx zp), 4, false⟩
  | .staZpx zp => ⟨0x95#8, .STA, .mem (.zpx zp), 4, false⟩
  | .stxZpy zp => ⟨0x96#8, .STX, .mem (.zpy zp), 4, false⟩
  | .tya => ⟨0x98#8, .TYA, .imp, 2, false⟩
  | .staAbsy addr => ⟨0x99#8, .STA, .mem (.absy addr), 5, false⟩
  | .txs => ⟨0x9A#8, .TXS, .imp, 2, false⟩
  | .staAbsx addr => ⟨0x9D#8, .STA, .mem (.absx addr), 5, false⟩
  | .ldyImm imm => ⟨0xA0#8, .LDY, .imm imm, 2, false⟩
  | .ldaIndx zp => ⟨0xA1#8, .LDA, .mem (.indx zp), 6, false⟩
  | .ldxImm imm => ⟨0xA2#8, .LDX, .imm imm, 2, false⟩
  | .ldyZp zp => ⟨0xA4#8, .LDY, .mem (.zp zp), 3, false⟩
  | .ldaZp zp => ⟨0xA5#8, .LDA, .mem (.zp zp), 3, false⟩
  | .ldxZp zp => ⟨0xA6#8, .LDX, .mem (.zp zp), 3, false⟩
  | .tay => ⟨0xA8#8, .TAY, .imp, 2, false⟩
  | .ldaImm imm => ⟨0xA9#8, .LDA, .imm imm, 2, false⟩
  | .tax => ⟨0xAA#8, .TAX, .imp, 2, false⟩
  | .ldyAbs addr => ⟨0xAC#8, .LDY, .mem (.abs addr), 4, false⟩
  | .ldaAbs addr => ⟨0xAD#8, .LDA, .mem (.abs addr), 4, false⟩
  | .ldxAbs addr => ⟨0xAE#8, .LDX, .mem (.abs addr), 4, false⟩
  | .bcs rel => ⟨0xB0#8, .BCS, .rel rel, 2, false⟩
  | .ldaIndy zp => ⟨0xB1#8, .LDA, .mem (.indy zp), 5, true⟩
  | .ldyZpx zp => ⟨0xB4#8, .LDY, .mem (.zpx zp), 4, false⟩
  | .ldaZpx zp => ⟨0xB5#8, .LDA, .mem (.zpx zp), 4, false⟩
  | .ldxZpy zp => ⟨0xB6#8, .LDX, .mem (.zpy zp), 4, false⟩
  | .clv => ⟨0xB8#8, .CLV, .imp, 2, false⟩
  | .ldaAbsy addr => ⟨0xB9#8, .LDA, .mem (.absy addr), 4, true⟩
  | .tsx => ⟨0xBA#8, .TSX, .imp, 2, false⟩
  | .ldyAbsx addr => ⟨0xBC#8, .LDY, .mem (.absx addr), 4, true⟩
  | .ldaAbsx addr => ⟨0xBD#8, .LDA, .mem (.absx addr), 4, true⟩
  | .ldxAbsy addr => ⟨0xBE#8, .LDX, .mem (.absy addr), 4, true⟩
  | .cpyImm imm => ⟨0xC0#8, .CPY, .imm imm, 2, false⟩
  | .cmpIndx zp => ⟨0xC1#8, .CMP, .mem (.indx zp), 6, false⟩
  | .cpyZp zp => ⟨0xC4#8, .CPY, .mem (.zp zp), 3, false⟩
  | .cmpZp zp => ⟨0xC5#8, .CMP, .mem (.zp zp), 3, false⟩
  | .decZp zp => ⟨0xC6#8, .DEC, .mem (.zp zp), 5, false⟩
  | .iny => ⟨0xC8#8, .INY, .imp, 2, false⟩
  | .cmpImm imm => ⟨0xC9#8, .CMP, .imm imm, 2, false⟩
  | .dex => ⟨0xCA#8, .DEX, .imp, 2, false⟩
  | .cpyAbs addr => ⟨0xCC#8, .CPY, .mem (.abs addr), 4, false⟩
  | .cmpAbs addr => ⟨0xCD#8, .CMP, .mem (.abs addr), 4, false⟩
  | .decAbs addr => ⟨0xCE#8, .DEC, .mem (.abs addr), 6, false⟩
  | .bne rel => ⟨0xD0#8, .BNE, .rel rel, 2, false⟩
  | .cmpIndy zp => ⟨0xD1#8, .CMP, .mem (.indy zp), 5, true⟩
  | .cmpZpx zp => ⟨0xD5#8, .CMP, .mem (.zpx zp), 4, false⟩
  | .decZpx zp => ⟨0xD6#8, .DEC, .mem (.zpx zp), 6, false⟩
  | .cld => ⟨0xD8#8, .CLD, .imp, 2, false⟩
  | .cmpAbsy addr => ⟨0xD9#8, .CMP, .mem (.absy addr), 4, true⟩
  | .cmpAbsx addr => ⟨0xDD#8, .CMP, .mem (.absx addr), 4, true⟩
  | .decAbsx addr => ⟨0xDE#8, .DEC, .mem (.absx addr), 7, false⟩
  | .cpxImm imm => ⟨0xE0#8, .CPX, .imm imm, 2, false⟩
  | .sbcIndx zp => ⟨0xE1#8, .SBC, .mem (.indx zp), 6, false⟩
  | .cpxZp zp => ⟨0xE4#8, .CPX, .mem (.zp zp), 3, false⟩
  | .sbcZp zp => ⟨0xE5#8, .SBC, .mem (.zp zp), 3, false⟩
  | .incZp zp => ⟨0xE6#8, .INC, .mem (.zp zp), 5, false⟩
  | .inx => ⟨0xE8#8, .INX, .imp, 2, false⟩
  | .sbcImm imm => ⟨0xE9#8, .SBC, .imm imm, 2, false⟩
  | .nop => ⟨0xEA#8, .NOP, .imp, 2, false⟩
  | .cpxAbs addr => ⟨0xEC#8, .CPX, .mem (.abs addr), 4, false⟩
  | .sbcAbs addr => ⟨0xED#8, .SBC, .mem (.abs addr), 4, false⟩
  | .incAbs addr => ⟨0xEE#8, .INC, .mem (.abs addr), 6, false⟩
  | .beq rel => ⟨0xF0#8, .BEQ, .rel rel, 2, false⟩
  | .sbcIndy zp => ⟨0xF1#8, .SBC, .mem (.indy zp), 5, true⟩
  | .sbcZpx zp => ⟨0xF5#8, .SBC, .mem (.zpx zp), 4, false⟩
  | .incZpx zp => ⟨0xF6#8, .INC, .mem (.zpx zp), 6, false⟩
  | .sed => ⟨0xF8#8, .SED, .imp, 2, false⟩
  | .sbcAbsy addr => ⟨0xF9#8, .SBC, .mem (.absy addr), 4, true⟩
  | .sbcAbsx addr => ⟨0xFD#8, .SBC, .mem (.absx addr), 4, true⟩
  | .incAbsx addr => ⟨0xFE#8, .INC, .mem (.absx addr), 7, false⟩

/-- The opcode byte (R98). -/
def Instr.opcode (i : Instr) : Byte := i.descriptor.opcode

/-- The mnemonic (R98). -/
def Instr.mnemonic (i : Instr) : Mnemonic := i.descriptor.mnemonic

/-- The operand form (R91). -/
def Instr.form (i : Instr) : Form := i.descriptor.form

/-- The base cycle count (R98). -/
def Instr.baseCycles (i : Instr) : Nat := i.descriptor.baseCycles

/-- The column "+1 on page cross" (R98). -/
def Instr.pagePenalty (i : Instr) : Bool := i.descriptor.pagePenalty

/-- The mode of a memory operand (R91). -/
def MemForm.mode : MemForm → AddrMode
  | .zp _ => .ZP
  | .zpx _ => .ZPX
  | .zpy _ => .ZPY
  | .abs _ => .ABS
  | .absx _ => .ABSX
  | .absy _ => .ABSY
  | .indx _ => .INDX
  | .indy _ => .INDY

/-- The mode of an operand form (R91). -/
def Form.mode : Form → AddrMode
  | .imp => .IMP
  | .acc => .ACC
  | .imm _ => .IMM
  | .mem m => m.mode
  | .ind _ => .IND
  | .rel _ => .REL

/-- Length in bytes by mode (the table of R91). -/
def AddrMode.length : AddrMode → Nat
  | .IMP | .ACC => 1
  | .IMM | .ZP | .ZPX | .ZPY | .INDX | .INDY | .REL => 2
  | .ABS | .ABSX | .ABSY | .IND => 3

/-- Length in bytes of an instruction (R91). -/
def Instr.length (i : Instr) : Nat := i.form.mode.length

/-- A 16-bit operand as it stands in memory: low byte first (R58, R93). -/
def wordBytes (w : Addr) : List Byte := [loByte w, hiByte w]

/-- The operand bytes of a memory operand (R91). -/
def MemForm.bytes : MemForm → List Byte
  | .zp b | .zpx b | .zpy b | .indx b | .indy b => [b]
  | .abs w | .absx w | .absy w => wordBytes w

/-- The operand bytes of a form (R91). -/
def Form.bytes : Form → List Byte
  | .imp | .acc => []
  | .imm b | .rel b => [b]
  | .mem m => m.bytes
  | .ind w => wordBytes w

/-- The bytes of an instruction in address order (R90). -/
def encode (i : Instr) : List Byte := i.opcode :: i.form.bytes

/-- The bytes of a table word: bit 0 is the least significant bit of the first byte, and the bits above
`nbits` are zero, up to the longest instruction (3 bytes). -/
def tableBytes (nbits w : Nat) : List Byte :=
  let v := w % 2 ^ nbits
  [BitVec.ofNat 8 v, BitVec.ofNat 8 (v / 256), BitVec.ofNat 8 (v / 65536)]

/-- The instruction the decoder reads from a word of spec/opcode_table.json; `none` where it refuses. -/
def decodeTableWord (nbits w : Nat) : Option Instr :=
  match decode (tableBytes nbits w) with
  | .ok (i, _) => some i
  | .error _ => none

end Sys2Proof
end

