-- ==== Sys2Proof/Config.lean ====
section
/-! DEFINITION. The parameters a machine is built with (00_scope.md R8, R9) and the free values of the spec (`draw()`, R11):
constants without a body, so that nothing can be proved about which value they give. -/

namespace Sys2Proof

/-- `CLOCK` (R8). It changes no state (R289, U17). -/
inductive Clock where
  | pal | ntsc
deriving DecidableEq, Repr

/-- `DECIMAL_FIDELITY` (R8, R176). -/
inductive DecimalFidelity where
  | nmosExact | validOnly
deriving DecidableEq, Repr

/-- `IRQ_MASK_LATENCY` in 0, 1 (R8, R265). -/
inductive MaskLatency where
  | zero | one
deriving DecidableEq, Repr

/-- `BUS_FIDELITY` (R8, R76, R127). -/
inductive BusFidelity where
  | logical | nmosDummy
deriving DecidableEq, Repr

/-- The direction of a bus access: `BUS_MAP` may answer differently for each (R60). -/
inductive Dir where
  | read | write
deriving DecidableEq, Repr

/-- What `BUS_MAP` selects (R60); `unmapped` only under a non-default map (R64). -/
inductive Source where
  | ram | basic | kernal | char | io | port | unmapped
deriving DecidableEq, Repr

/-- The three ROM images, which no write changes (R63). -/
def Source.isRom : Source → Bool
  | .basic | .kernal | .char => true
  | .ram | .io | .port | .unmapped => false

/-- One row of a non-default map: in the configurations listed, the addresses `lo` to `hi` read from `onRead` and write to
`onWrite` (a write at a ROM goes to the RAM beneath, whatever `onWrite` says: R63, log 15). -/
structure BusRegion where
  configs : List (BitVec 3)
  lo : Addr
  hi : Addr
  onRead : Source
  onWrite : Source
deriving DecidableEq, Repr

/-- `BUS_MAP` (R8, R60): the Commodore 64 map of R61, or a table of regions of which the first that matches wins, with the
configurations it declares invalid (R67). DESIGN CHOICE (log 14): a map is plain data; every function of (Cfg, address,
direction) can be written so. -/
inductive BusMap where
  | c64
  | table (regions : List BusRegion) (invalid : List (BitVec 3))
deriving DecidableEq, Repr

/-- The configuration of a machine (R8, R9). It is not part of the record R20 and no step changes it. -/
structure Config where
  clock : Clock
  throttle : Bool
  pacerBatch : { n : Nat // 0 < n }
  decimal : DecimalFidelity
  irqLatency : MaskLatency
  busFidelity : BusFidelity
  busMap : BusMap
  romBasic : Memory
  romKernal : Memory
  romChar : Memory
deriving DecidableEq, Repr

/-- What the supervisor hands over before reset (R9): images as raw bytes, each possibly missing, and the clock selection as
text. The other parameters have the defaults of R8, except that R8 leaves the one of PACER_BATCH unspecified: the 1 it has here when
left out is the model's choice (DESIGN CHOICE, log 7). -/
structure RawConfig where
  clock : String
  basic : Option (List Byte)
  kernal : Option (List Byte)
  char : Option (List Byte)
  throttle : Bool := true
  pacerBatch : { n : Nat // 0 < n } := ⟨1, Nat.one_pos⟩
  decimal : DecimalFidelity := .nmosExact
  irqLatency : MaskLatency := .zero
  busFidelity : BusFidelity := .logical
  busMap : BusMap := .c64
deriving DecidableEq, Repr

/-- The three ROM images (R7). -/
inductive RomName where
  | basic | kernal | char
deriving DecidableEq, Repr

/-- The configuration errors of R9: reported once at startup, execution never begins. -/
inductive ConfigError where
  | missingRom (rom : RomName)
  | missizedRom (rom : RomName) (size : Nat)
  | invalidClock (given : String)
deriving DecidableEq, Repr

/-! ### Free values (R11 `draw()`; log 8). The first argument counts the draws of the run. -/

/-- The byte `IO_DEVICE` answers to a read of the I/O window (R62, U9). -/
opaque Config.ioDevice : Nat → Addr → Byte

/-- The port pins 7 to 3 at one read of 0x0001 (`PORT_INPUT`, R70, U8). -/
opaque Config.portInput : Nat → BitVec 5

/-- The byte an unmapped address reads as (R64, U10). -/
opaque Config.openBus : Nat → Addr → Byte

/-! ### Inputs without a default (R8): the ROM images `State.reset` is built with (log 6). -/

opaque Config.romBasicImage : Memory
opaque Config.romKernalImage : Memory
opaque Config.romCharImage : Memory

/-- The configuration of `State.reset`: the defaults of R8, the images above, and the choices of log 7 for CLOCK and
PACER_BATCH, which have no default. -/
def Config.default : Config where
  clock := .pal
  throttle := true
  pacerBatch := ⟨1, Nat.one_pos⟩
  decimal := .nmosExact
  irqLatency := .zero
  busFidelity := .logical
  busMap := .c64
  romBasic := Config.romBasicImage
  romKernal := Config.romKernalImage
  romChar := Config.romCharImage

end Sys2Proof
end

