-- ==== Sys2Proof/Machine/Memory.lean ====
section
/-! DEFINITION. Reading and writing one byte of a `Memory`, and its canonical form. Used for RAM (10_state.md R41) and for the
ROM images (00_scope.md R9). -/

namespace Sys2Proof

/-- What an address that no entry lists reads as. For RAM this is its power-on value, which R46 leaves open: DESIGN CHOICE
(log 4), unsafe. For a ROM image it only says how an image is written down (log 6). -/
def Memory.unlisted : Byte := 0x00#8

/-- The byte at address `a`. -/
def Memory.read : Memory → Nat → Byte
  | [], _ => Memory.unlisted
  | (k, v) :: m, a => if a = k then v else Memory.read m a

/-- An entry for `(a, v)` before `m`, unless `v` is what an unlisted address reads as. -/
def Memory.entry (a : Nat) (v : Byte) (m : Memory) : Memory :=
  if v = Memory.unlisted then m else (a, v) :: m

/-- The memory with the byte at `a` set to `v`, in canonical form. -/
def Memory.write : Memory → Nat → Byte → Memory
  | [], a, v => Memory.entry a v []
  | (k, w) :: m, a, v =>
    if a < k then Memory.entry a v ((k, w) :: m)
    else if a = k then Memory.entry a v m
    else (k, w) :: Memory.write m a v

/-- Addresses at least `lo` and strictly rising, no entry with the unlisted value. -/
def Memory.wfFrom : Nat → Memory → Bool
  | _, [] => true
  | lo, (k, v) :: m => decide (lo ≤ k) && decide (v ≠ Memory.unlisted) && Memory.wfFrom (k + 1) m

/-- The canonical form: equal memories are equal lists. -/
def Memory.wf (m : Memory) : Bool := Memory.wfFrom 0 m

/-- Every listed address is below `n`. -/
def Memory.within (n : Nat) (m : Memory) : Bool := m.all fun c => decide (c.1 < n)

/-- A raw image as a memory: its first byte at address `a`, the next at `a + 1`, and so on. -/
def Memory.ofBytes : Nat → List Byte → Memory
  | _, [] => []
  | a, v :: vs => Memory.entry a v (Memory.ofBytes (a + 1) vs)

end Sys2Proof
end

