-- ==== Sys2Proof/Machine/State.lean ====
section
/-! DEFINITION. The state of the machine: the record of 10_state.md R20, the model's own fields beside it, the reasons a step can
stop, and the state right after reset (R46). Plain data throughout. -/

namespace Sys2Proof.Machine

/-- The six stored flags of P (R20, R27). B and bit 5 have no storage (R27, R28). -/
structure Flags where
  n : Bool
  v : Bool
  d : Bool
  i : Bool
  z : Bool
  c : Bool
deriving DecidableEq, Repr

/-- The fault record `kind, address, opcode` of R38: the ways a machine halts. -/
inductive Fault where
  /-- Raised by the fetch when the byte at PC is one of the 105 illegal opcodes (R94, R280). Safe: the spec's own outcome; the
  chip would do something undocumented (D2). -/
  | illegalOpcode (address : Addr) (opcode : Byte)
  /-- Raised by an instruction whose write to 0x0000 or 0x0001 would give a configuration that a non-default `BUS_MAP` declares
  invalid (R67, R281). Safe: the spec's own outcome; never under the default map. -/
  | invalidBankConfig (address : Addr) (opcode : Byte)
deriving DecidableEq, Repr

/-- The refusals: those of R284, and no other (log 22). -/
inductive Refusal where
  /-- An instruction that has no meaning in the model yet; raised by arms of `exec` only. Safe. -/
  | notModelled (mnemonic : String)
  /-- Raised by ADC and SBC with P.D = 1 on a byte that is not valid BCD, under `DECIMAL_FIDELITY = VALID_ONLY` only (R176, R284).
  Safe. -/
  | invalidBcd (a : Byte) (m : Byte)
  /-- Raised by the fetch of an instruction byte in the I/O window, under `BUS_FIDELITY = NMOS_DUMMY` only (R127, R284). Safe. -/
  | ioFetchUnderDummy (address : Addr)
  /-- Raised by a step, of an interrupt service or of an instruction, whose dummy read of the program-counter address lies in the I/O
  window, under `BUS_FIDELITY = NMOS_DUMMY` only (R127). Safe. -/
  | ioPcUnderDummy (address : Addr)
  /-- Raised by a (zp,X) or (zp),Y pointer read in the I/O window, under `BUS_FIDELITY = NMOS_DUMMY` only (R127, R284). Safe. -/
  | ioPointerUnderDummy (zp : Byte)
deriving DecidableEq, Repr

/-- One access handed to `IO_DEVICE` (R62): a read with the byte it answered, or a write. -/
inductive IoAccess where
  | read (addr : Addr) (answer : Byte)
  | write (addr : Addr) (value : Byte)
deriving DecidableEq, Repr

/-- The state record of R20, and four fields of the model's own (`lastWasMaskOp`, `draws`, `ioLog`, `cfg`). -/
structure State where
  /-- Accumulator (R21). -/
  a : Byte
  /-- Index register X (R22). -/
  x : Byte
  /-- Index register Y (R23). -/
  y : Byte
  /-- Stack pointer S, an offset into page 1 (R25). -/
  sp : Byte
  /-- Program counter (R26). -/
  pc : Addr
  /-- Status register P (R27). -/
  p : Flags
  /-- Non-maskable interrupt latch (R37). -/
  nmiPending : Bool
  /-- Maskable interrupt latch (R37). -/
  irqPending : Bool
  /-- Cycle counter (R36). -/
  cycles : Nat
  /-- Main memory (R41). -/
  ram : Memory
  /-- Port data-direction register, bus address 0x0000 (R39). -/
  portDDR : Byte
  /-- Port output register, bus address 0x0001 (R39). -/
  portDATA : Byte
  /-- Run status: the fault record once a fault has been raised (R38). -/
  halted : Option Fault
  /-- The previous step was an interrupt service (R44). -/
  lastWasService : Bool
  /-- P.I at the start of the most recently executed instruction (R45). -/
  iAtLastBoundary : Bool
  /-- The most recently executed instruction was CLI, SEI or PLP. DEDUCED (log 10): R265 reads this, R20 does not list it. -/
  lastWasMaskOp : Bool
  /-- How many free values the run has drawn (R11). DESIGN CHOICE (log 8). -/
  draws : Nat
  /-- The accesses handed to `IO_DEVICE`, newest first (R62). DESIGN CHOICE (log 9). -/
  ioLog : List IoAccess
  /-- The configuration the machine was built with (R8); no step changes it. DESIGN CHOICE (log 5). -/
  cfg : Config
deriving DecidableEq, Repr

/-- What a step, an instruction or a shared operation answers. -/
abbrev Result := Host.Outcome State Fault Refusal

/-- The word at 0xFFFC/0xFFFD of a KERNAL image, low byte first (R46, R302). -/
def resetVector (kernal : Memory) : Addr := wordOf (kernal.read 0x1FFD) (kernal.read 0x1FFC)

/-- The machine right after power-on (R46, R300) with `Config.default`. S, I, PC, PortDDR, the latches, `Cycles`, `halted`,
`lastWasService` and `iAtLastBoundary` are the spec's values. DESIGN CHOICE, unsafe: A, X, Y (log 1), N, V, D, Z, C (log 2),
PortDATA (log 3) and RAM (log 4), for each of which the spec has a draw; `State.powerOn` takes those as arguments. -/
def State.reset : State where
  a := 0x00#8
  x := 0x00#8
  y := 0x00#8
  sp := 0xFD#8
  pc := resetVector Config.default.romKernal
  p := { n := false, v := false, d := false, i := true, z := false, c := false }
  nmiPending := false
  irqPending := false
  cycles := 0
  ram := []
  portDDR := 0x00#8
  portDATA := 0x00#8
  halted := none
  lastWasService := false
  iAtLastBoundary := true
  lastWasMaskOp := false
  draws := 0
  ioLog := []
  cfg := Config.default

end Sys2Proof.Machine
end

