-- ==== Sys2Proof/Machine/Bus.lean ====
section
/-! DEFINITION. The memory bus arbiter (20_memory.md R50 to R72): the bank configuration, `BUS_MAP`, one read, one write. -/

namespace Sys2Proof.Machine

/-- `Cfg = (PortDATA | ~PortDDR) & 7` (R40): LORAM bit 0, HIRAM bit 1, CHAREN bit 2. -/
def bankOf (ddr data : Byte) : BitVec 3 := (data ||| ~~~ddr).setWidth 3

/-- The current bank configuration (R40). -/
def State.bankCfg (s : State) : BitVec 3 := bankOf s.portDDR s.portDATA

/-- The Commodore 64 map for addresses from 0x0002 on (the table of R61). -/
def c64Select (cfg : BitVec 3) (a : Addr) (dir : Dir) : Source :=
  let loram := cfg.getLsbD 0
  let hiram := cfg.getLsbD 1
  let charen := cfg.getLsbD 2
  if a.toNat < 0xA000 then .ram
  else if a.toNat < 0xC000 then
    match dir with
    | .read => if loram && hiram then .basic else .ram
    | .write => .ram
  else if a.toNat < 0xD000 then .ram
  else if a.toNat < 0xE000 then
    if !loram && !hiram then .ram
    else if charen then .io
    else
      match dir with
      | .read => .char
      | .write => .ram
  else
    match dir with
    | .read => if hiram then .kernal else .ram
    | .write => .ram

/-- What a region's `Source` means at an address: a ROM image only answers at the addresses it has (R60 fixes its offset), and the
port only at 0x0000 and 0x0001. DESIGN CHOICE (log 14): any other entry is unmapped (R64). -/
def Source.at (src : Source) (a : Addr) : Source :=
  match src with
  | .basic => if 0xA000 ≤ a.toNat ∧ a.toNat < 0xC000 then .basic else .unmapped
  | .kernal => if 0xE000 ≤ a.toNat then .kernal else .unmapped
  | .char => if 0xD000 ≤ a.toNat ∧ a.toNat < 0xE000 then .char else .unmapped
  | .port => .unmapped
  | .ram => .ram
  | .io => .io
  | .unmapped => .unmapped

/-- The first region that lists the configuration and holds the address (R60 "a fixed priority"); `unmapped` if there is none
(R64). -/
def tableSelect (regions : List BusRegion) (cfg : BitVec 3) (a : Addr) (dir : Dir) : Source :=
  match regions with
  | [] => .unmapped
  | r :: rest =>
    if r.configs.contains cfg && decide (r.lo.toNat ≤ a.toNat) && decide (a.toNat ≤ r.hi.toNat) then
      match dir with
      | .read => Source.at r.onRead a
      | .write => Source.at r.onWrite a
    else tableSelect rest cfg a dir

/-- What a write selects under a table: what the table says, but the RAM byte at the same address where the read selects a ROM (R63),
and where the table names a ROM for the write ("writes to ROM-mapped ranges" are redirected, R51, D11; DEDUCED, log 15). -/
def tableWriteSelect (regions : List BusRegion) (cfg : BitVec 3) (a : Addr) : Source :=
  if (tableSelect regions cfg a .read).isRom || (tableSelect regions cfg a .write).isRom then .ram
  else tableSelect regions cfg a .write

/-- `BUS_MAP(Cfg, addr, dir)` (R60), a total function. 0x0000 and 0x0001 are the port under every map (R70 to R72). -/
def busSelect (m : BusMap) (cfg : BitVec 3) (a : Addr) (dir : Dir) : Source :=
  if a.toNat < 2 then .port
  else
    match m with
    | .c64 => c64Select cfg a dir
    | .table regions _ =>
      match dir with
      | .read => tableSelect regions cfg a .read
      | .write => tableWriteSelect regions cfg a

/-- What an access made now selects (R50, R51). -/
def State.select (s : State) (a : Addr) (dir : Dir) : Source := busSelect s.cfg.busMap s.bankCfg a dir

/-- The pins as a read of 0x0001 sees them: 2 to 0 pulled up, 7 to 3 the `PORT_INPUT` draw (R70). -/
def State.pins (s : State) : Byte := (Config.portInput s.draws ++ 0b111#3 : BitVec 8)

/-- A read of the port (R70): `PortDDR` at 0x0000, the mix of output register and pins at 0x0001. -/
def State.readPort (s : State) (a : Addr) : Byte :=
  if a = 0x0000#16 then s.portDDR else (s.portDATA &&& s.portDDR) ||| (s.pins &&& ~~~s.portDDR)

/-- The byte that `MemRead(a, 1)` answers now (R50). -/
def State.peek (s : State) (a : Addr) : Byte :=
  match s.select a .read with
  | .ram => s.ram.read a.toNat
  | .basic => s.cfg.romBasic.read (a.toNat - 0xA000)
  | .kernal => s.cfg.romKernal.read (a.toNat - 0xE000)
  | .char => s.cfg.romChar.read (a.toNat - 0xD000)
  | .io => Config.ioDevice s.draws a
  | .port => s.readPort a
  | .unmapped => Config.openBus s.draws a

/-- How many free values have been drawn after `MemRead(a, 1)`: one more when the read draws (log 8). -/
def State.drawsAfterRead (s : State) (a : Addr) : Nat :=
  match s.select a .read with
  | .ram | .basic | .kernal | .char => s.draws
  | .port => if a = 0x0000#16 then s.draws else s.draws + 1
  | .io | .unmapped => s.draws + 1

/-- The accesses the device has seen after `MemRead(a, 1)` (R62, log 9). -/
def State.ioLogAfterRead (s : State) (a : Addr) : List IoAccess :=
  match s.select a .read with
  | .io => .read a (s.peek a) :: s.ioLog
  | .ram | .basic | .kernal | .char | .port | .unmapped => s.ioLog

/-- The state after `MemRead(a, 1)`: RAM and ROM reads change nothing (R66), a read that draws consumes one free value (log 8),
and a read of the I/O window is seen by the device (R62, log 9). -/
def State.afterRead (s : State) (a : Addr) : State :=
  { s with draws := s.drawsAfterRead a, ioLog := s.ioLogAfterRead a }

/-- `MemRead(a, 1)` (R50): the byte and the state after. -/
def State.memRead (s : State) (a : Addr) : Byte × State := (s.peek a, s.afterRead a)

/-- RAM after `MemWrite(a, 1, v)`. Under a ROM every map selects RAM for the write (R63), so the ROM cases do not occur. -/
def State.ramAfterWrite (s : State) (a : Addr) (v : Byte) : Memory :=
  match s.select a .write with
  | .ram => s.ram.write a.toNat v
  | .basic | .kernal | .char | .io | .port | .unmapped => s.ram

/-- The accesses the device has seen after `MemWrite(a, 1, v)` (R62, log 9). -/
def State.ioLogAfterWrite (s : State) (a : Addr) (v : Byte) : List IoAccess :=
  match s.select a .write with
  | .io => .write a v :: s.ioLog
  | .ram | .basic | .kernal | .char | .port | .unmapped => s.ioLog

/-- `MemWrite(a, 1, v)` (R51): total. 0x0000 and 0x0001 are the port registers under every map (R71, R72). A write at a ROM reaches the
RAM beneath (R63), one to an unmapped address is discarded (R64). -/
def State.memWrite (s : State) (a : Addr) (v : Byte) : State :=
  { s with
    ram := s.ramAfterWrite a v,
    ioLog := s.ioLogAfterWrite a v,
    portDDR := if a = 0x0000#16 then v else s.portDDR,
    portDATA := if a = 0x0001#16 then v else s.portDATA }

/-- A write of `v` to `a` would give a bank configuration that the map declares invalid (R67): only a port write under a
non-default map can. -/
def State.bankWriteInvalid (s : State) (a : Addr) (v : Byte) : Bool :=
  match s.cfg.busMap with
  | .c64 => false
  | .table _ invalid =>
    if a = 0x0000#16 then invalid.contains (bankOf v s.portDATA)
    else if a = 0x0001#16 then invalid.contains (bankOf s.portDDR v)
    else false

/-- `Read16(a)` (R53): low byte first, the address modulo 2^16. -/
def State.read16 (s : State) (a : Addr) : Addr × State :=
  let s1 := s.afterRead a
  (wordOf (s1.peek (a + 1#16)) (s.peek a), s1.afterRead (a + 1#16))

/-- `Read16zp(z)` (R54): the second byte stays in page 0. -/
def State.read16zp (s : State) (z : Byte) : Addr × State :=
  let s1 := s.afterRead (zext16 z)
  (wordOf (s1.peek (zext16 (z + 1#8))) (s.peek (zext16 z)), s1.afterRead (zext16 (z + 1#8)))

/-- The address of the second byte of `Read16pw(a)`: in the same page as `a` (R55). -/
def samePageNext (a : Addr) : Addr := wordOf (hiByte a) (loByte a + 1#8)

/-- `Read16pw(a)` (R55), used by `JMP (indirect)` only. -/
def State.read16pw (s : State) (a : Addr) : Addr × State :=
  let s1 := s.afterRead a
  (wordOf (s1.peek (samePageNext a)) (s.peek a), s1.afterRead (samePageNext a))

end Sys2Proof.Machine
end

