-- ==== Sys2Proof/Machine/Flags.lean ====
section
/-! DEFINITION. The status register and the ALU: packing (10_state.md R28, R29), the N/Z rule (R30), every arithmetic, compare,
logic and shift result with its flags (43_arithmetic.md, 44_logic_shift.md). -/

namespace Sys2Proof.Machine

/-- `Pack(b)` (R28): N V 1 b D I Z C, from bit 7 down. -/
def Flags.pack (p : Flags) (b : Bool) : Byte :=
  BitVec.ofNat 8 (bitNat p.n * 128 + bitNat p.v * 64 + 32 + bitNat b * 16 + bitNat p.d * 8 + bitNat p.i * 4 + bitNat p.z * 2
    + bitNat p.c)

/-- `Unpack(v)` (R29): bits 5 and 4 are ignored. -/
def unpackFlags (v : Byte) : Flags where
  n := v.getLsbD 7
  v := v.getLsbD 6
  d := v.getLsbD 3
  i := v.getLsbD 2
  z := v.getLsbD 1
  c := v.getLsbD 0

/-- `SetNZ(r)` (R11, R30). -/
def Flags.setNZ (p : Flags) (r : Byte) : Flags := { p with n := r.getLsbD 7, z := r == 0x00#8 }

/-! ### Addition and subtraction -/

/-- The V rule of addition (R171, R172): the operands have the same sign and the result's sign differs. -/
def addOverflow (a m r : Byte) : Bool := (~~~(a ^^^ m) &&& (a ^^^ r) &&& 0x80#8) != 0x00#8

/-- The V rule of subtraction (R174, R175): the operands have different signs and the result's sign differs from A's. -/
def subOverflow (a m r : Byte) : Bool := ((a ^^^ m) &&& (a ^^^ r) &&& 0x80#8) != 0x00#8

/-- `BinaryAdd(M)` (R171): the new A and P. -/
def binaryAdd (a m : Byte) (p : Flags) : Byte × Flags :=
  let sum := a.toNat + m.toNat + bitNat p.c
  let r := BitVec.ofNat 8 sum
  (r, { p.setNZ r with c := decide (0x100 ≤ sum), v := addOverflow a m r })

/-- The low digit of `DecimalAdd` (R172, `AL`). -/
def decimalAddLow (a m : Byte) (c : Bool) : Nat :=
  let al := a.toNat % 16 + m.toNat % 16 + bitNat c
  if 0x0A ≤ al then (al + 0x06) % 16 + 0x10 else al

/-- The sum of `DecimalAdd` before the high-digit adjustment (R172, the first `t`). -/
def decimalAddSum (a m : Byte) (c : Bool) : Nat := a.toNat / 16 * 16 + m.toNat / 16 * 16 + decimalAddLow a m c

/-- `DecimalAdd(M)` (R172): N and V from the intermediate sum, Z from the binary sum. -/
def decimalAdd (a m : Byte) (p : Flags) : Byte × Flags :=
  let bin := BitVec.ofNat 8 (a.toNat + m.toNat + bitNat p.c)
  let t := decimalAddSum a m p.c
  let t' := if 0xA0 ≤ t then t + 0x60 else t
  (BitVec.ofNat 8 t',
    { p with n := t.testBit 7, v := addOverflow a m (BitVec.ofNat 8 t), z := bin == 0x00#8, c := decide (0x100 ≤ t') })

/-- `BinarySub(M)` (R174): the new A and P. -/
def binarySub (a m : Byte) (p : Flags) : Byte × Flags :=
  let diff := a.toNat + (m ^^^ 0xFF#8).toNat + bitNat p.c
  let r := BitVec.ofNat 8 diff
  (r, { p.setNZ r with c := decide (0x100 ≤ diff), v := subOverflow a m r })

/-- The low digit of `DecimalSub` (R175, `AL`), a signed integer. -/
def decimalSubLow (a m : Byte) (c : Bool) : Int :=
  let al : Int := (a.toNat % 16 : Nat) - (m.toNat % 16 : Nat) + (bitNat c : Nat) - 1
  if al < 0 then (al - 0x06) % 16 - 0x10 else al

/-- The decimal-adjusted A of `DecimalSub` (R175). -/
def decimalSubValue (a m : Byte) (c : Bool) : Byte :=
  let t : Int := (a.toNat / 16 * 16 : Nat) - (m.toNat / 16 * 16 : Nat) + decimalSubLow a m c
  let t' := if t < 0 then t - 0x60 else t
  BitVec.ofInt 8 t'

/-- `DecimalSub(M)` (R175): the flags are those of the binary subtraction, only A is adjusted. -/
def decimalSub (a m : Byte) (p : Flags) : Byte × Flags := (decimalSubValue a m p.c, (binarySub a m p).2)

/-- A valid BCD byte: both nibbles are 0 to 9 (R176). -/
def validBcd (v : Byte) : Bool := decide (v.toNat % 16 ≤ 9) && decide (v.toNat / 16 ≤ 9)

/-- The result of ADC (R170): binary or decimal by D. -/
def adcResult (a m : Byte) (p : Flags) : Byte × Flags := if p.d then decimalAdd a m p else binaryAdd a m p

/-- The result of SBC (R173): binary or decimal by D. -/
def sbcResult (a m : Byte) (p : Flags) : Byte × Flags := if p.d then decimalSub a m p else binarySub a m p

/-! ### Compare, logic, shifts -/

/-- The flags of CMP, CPX and CPY (R177 to R179): C is "no borrow", N and Z from the difference. -/
def compareFlags (r m : Byte) (p : Flags) : Flags := { p.setNZ (r - m) with c := decide (m.toNat ≤ r.toNat) }

/-- The flags of BIT (R203): N and V from the memory byte, Z from the and. -/
def bitFlags (a m : Byte) (p : Flags) : Flags :=
  { p with n := m.getLsbD 7, v := m.getLsbD 6, z := (a &&& m) == 0x00#8 }

/-- ASL (R204). -/
def aslResult (v : Byte) (p : Flags) : Byte × Flags :=
  let r := v <<< 1
  (r, { p.setNZ r with c := v.getLsbD 7 })

/-- LSR (R205). -/
def lsrResult (v : Byte) (p : Flags) : Byte × Flags :=
  let r := v >>> 1
  (r, { p.setNZ r with c := v.getLsbD 0 })

/-- ROL (R206): a 9-bit rotation through C. -/
def rolResult (v : Byte) (p : Flags) : Byte × Flags :=
  let r := (v <<< 1) ||| BitVec.ofNat 8 (bitNat p.c)
  (r, { p.setNZ r with c := v.getLsbD 7 })

/-- ROR (R207): a 9-bit rotation through C. -/
def rorResult (v : Byte) (p : Flags) : Byte × Flags :=
  let r := (v >>> 1) ||| BitVec.ofNat 8 (bitNat p.c * 128)
  (r, { p.setNZ r with c := v.getLsbD 0 })

/-- INC (R180): wraps, C and V untouched. -/
def incResult (v : Byte) (p : Flags) : Byte × Flags := (v + 1#8, p.setNZ (v + 1#8))

/-- DEC (R181): wraps, C and V untouched. -/
def decResult (v : Byte) (p : Flags) : Byte × Flags := (v - 1#8, p.setNZ (v - 1#8))

end Sys2Proof.Machine
end

