-- ==== Sys2Proof/Machine/Ops.lean ====
section
/-! DEFINITION. The named operations over registers, stack and bus that the meanings share, and taking an exception (60_exceptions.md
R266, 45_control_transfer.md R233) with the return from one (R232). -/

namespace Sys2Proof.Machine

/-! ### Registers -/

/-- `A <- v; SetNZ(v)`. -/
def State.loadA (v : Byte) (s : State) : State := { s with a := v, p := s.p.setNZ v }

/-- `X <- v; SetNZ(v)`. -/
def State.loadX (v : Byte) (s : State) : State := { s with x := v, p := s.p.setNZ v }

/-- `Y <- v; SetNZ(v)`. -/
def State.loadY (v : Byte) (s : State) : State := { s with y := v, p := s.p.setNZ v }

/-- Write A and P together, from an ALU result. -/
def State.setAP (r : Byte × Flags) (s : State) : State := { s with a := r.1, p := r.2 }

/-- Write P. -/
def State.setP (p : Flags) (s : State) : State := { s with p := p }

/-- The program counter and the cycle counter after an instruction of `len` bytes that costs `cost` cycles and falls through
(R110, R320). The order of these two against the bus accesses cannot be seen (log 20). -/
def State.retire (len cost : Nat) (s : State) : State :=
  { s with pc := s.pc + BitVec.ofNat 16 len, cycles := s.cycles + cost }

/-- The program counter and the cycle counter after an instruction that jumps to `target` and costs `cost` cycles. -/
def State.jumpTo (target : Addr) (cost : Nat) (s : State) : State :=
  { s with pc := target, cycles := s.cycles + cost }

/-! ### Stack -/

/-- `Push(v)` (R56): write, then decrement S modulo 256. -/
def State.push (v : Byte) (s : State) : State :=
  { s.memWrite (stackAddr s.sp) v with sp := s.sp - 1#8 }

/-- The byte that `Pull()` answers (R57): S is incremented first. -/
def State.pullByte (s : State) : Byte := s.peek (stackAddr (s.sp + 1#8))

/-- The state after `Pull()` (R57). -/
def State.afterPull (s : State) : State := { s.afterRead (stackAddr (s.sp + 1#8)) with sp := s.sp + 1#8 }

/-- Push a 16-bit value, high byte then low (R58, R230, R266). -/
def State.pushWord (w : Addr) (s : State) : State := (s.push (hiByte w)).push (loByte w)

/-- Pull a 16-bit value, low byte then high (R231, R232). -/
def State.pullWord (s : State) : Addr × State :=
  let s1 := s.afterPull
  (wordOf s1.pullByte s.pullByte, s1.afterPull)

/-! ### Exceptions -/

/-- Taking an exception, the one entry that NMI, IRQ and BRK share (R233, R266): push `ret` (high, low) and `Pack(b)`, set I, load
PC from the vector, read through the bus as it is then. D is left unchanged (R34). -/
def State.takeException (ret : Addr) (b : Bool) (vector : Addr) (s : State) : State :=
  let s1 := (s.pushWord ret).push (s.p.pack b)
  let s2 := { s1 with p := { s1.p with i := true } }
  { (s2.read16 vector).2 with pc := (s2.read16 vector).1 }

/-- The return from an exception (R232): pull P (N, V, D, I, Z, C), then PC; no 1 is added. -/
def State.returnFromException (s : State) : State :=
  let s1 := { s.afterPull with p := unpackFlags s.pullByte }
  { s1.pullWord.2 with pc := s1.pullWord.1 }

/-! ### Instruction fetch -/

/-- A read of the byte at PC `a` is refused: it lies in the I/O window and the bus is `NMOS_DUMMY` (R127, R284). -/
def State.fetchRefused (s : State) (a : Addr) : Bool :=
  match s.cfg.busFidelity with
  | .logical => false
  | .nmosDummy => s.select a .read == .io

/-- Fetch `n` bytes from `a` on, addresses modulo 2^16 (R90, R110). -/
def State.fetchBytes : Nat → Addr → State → Host.Outcome (List Byte × State) Fault Refusal
  | 0, _, s => .next ([], s)
  | n + 1, a, s =>
    if s.fetchRefused a then .refused (.ioFetchUnderDummy a)
    else
      match State.fetchBytes n (a + 1#16) (s.afterRead a) with
      | .next (bs, t) => .next (s.peek a :: bs, t)
      | .fault f => .fault f
      | .refused r => .refused r

end Sys2Proof.Machine
end

