-- ==== Sys2Proof/Machine/Operands.lean ====
section
/-! DEFINITION. The addressing modes (40_addressing_modes.md R111 to R123), page crossing and its cost (R124, R125), the access
classes (R126) with their dummy accesses (R127): every operand form, once. A meaning starts with PC at the opcode (`PC0`). -/

namespace Sys2Proof.Machine

/-- An effective address: the address, the 16-bit base it was computed from (the address itself where nothing is added to a 16-bit
base), and the state after the pointer reads. -/
structure Resolved where
  ea : Addr
  base : Addr
  st : State
deriving DecidableEq, Repr

/-- The effective address of each mode (R114 to R119, R121, R122). -/
def State.resolve (s : State) : MemForm → Resolved
  | .zp b => ⟨zext16 b, zext16 b, s⟩
  | .zpx b => ⟨zext16 (b + s.x), zext16 (b + s.x), s⟩
  | .zpy b => ⟨zext16 (b + s.y), zext16 (b + s.y), s⟩
  | .abs w => ⟨w, w, s⟩
  | .absx w => ⟨w + zext16 s.x, w, s⟩
  | .absy w => ⟨w + zext16 s.y, w, s⟩
  | .indx b => ⟨(s.read16zp (b + s.x)).1, (s.read16zp (b + s.x)).1, (s.read16zp (b + s.x)).2⟩
  | .indy b => ⟨(s.read16zp b).1 + zext16 s.y, (s.read16zp b).1, (s.read16zp b).2⟩

/-- `base[15:8] != EA[15:8]` (R124). -/
def pageCross (base ea : Addr) : Bool := hiByte base != hiByte ea

/-- The page-crossing flag of a resolved operand (R118, R119, R122, R124). -/
def Resolved.cross (r : Resolved) : Bool := pageCross r.base r.ea

/-- The uncorrected address of an indexed access: the base's page with the low byte of the EA (R127). -/
def Resolved.uncorrected (r : Resolved) : Addr := wordOf (hiByte r.base) (loByte r.ea)

/-- The modes that add an index to a 16-bit base: ABSX, ABSY, INDY (R124, R127). -/
def indexes16 : MemForm → Bool
  | .absx _ | .absy _ | .indy _ => true
  | .zp _ | .zpx _ | .zpy _ | .abs _ | .indx _ => false

/-- The zero-page pointer of a mode that has one: `p` of R121, `b1` of R122. -/
def State.pointerOf (s : State) : MemForm → Option Byte
  | .indx b => some (b + s.x)
  | .indy b => some b
  | .zp _ | .zpx _ | .zpy _ | .abs _ | .absx _ | .absy _ => none

/-- A (zp,X) or (zp),Y pointer read that the model refuses: in the I/O window under `NMOS_DUMMY` (R127, R284). DEDUCED (log 22): one of
its two bytes there is enough, and no other access to page zero is refused. -/
def State.pointerRefused (s : State) (m : MemForm) : Option Byte :=
  match s.cfg.busFidelity with
  | .logical => none
  | .nmosDummy =>
    match s.pointerOf m with
    | none => none
    | some z =>
      if s.select (zext16 z) .read == .io || s.select (zext16 (z + 1#8)) .read == .io then some z else none

/-- The dummy read of a read-class access (R127 a): under `NMOS_DUMMY`, on a page crossing. -/
def State.readDummy (s : State) (r : Resolved) : State :=
  match s.cfg.busFidelity with
  | .logical => r.st
  | .nmosDummy => if r.cross then r.st.afterRead r.uncorrected else r.st

/-- The dummy read of a write or read-modify-write access (R127 b): under `NMOS_DUMMY`, in every mode that indexes a 16-bit
base. -/
def State.writeDummy (s : State) (m : MemForm) (r : Resolved) : State :=
  match s.cfg.busFidelity with
  | .logical => r.st
  | .nmosDummy => if indexes16 m then r.st.afterRead r.uncorrected else r.st

/-- The state in which a read-class instruction reads its operand (R76): after the pointer reads and the dummy read. -/
def State.operandState (s : State) (m : MemForm) : State := s.readDummy (s.resolve m)

/-- The operand byte of a read-class instruction: `MemRead(EA, 1)` (R126). -/
def State.operandByte (s : State) (m : MemForm) : Byte := (s.operandState m).peek (s.resolve m).ea

/-- The state after the operand of a read-class instruction has been read. -/
def State.afterOperand (s : State) (m : MemForm) : State := (s.operandState m).afterRead (s.resolve m).ea

/-- The page-crossing cycle of the read class (R125). -/
def State.pageCost (s : State) (m : MemForm) : Nat := bitNat (s.resolve m).cross

/-- A read-class instruction with an immediate operand (R113): 2 bytes, 2 cycles. -/
def immInstr (v : Byte) (k : Byte → State → Result) (s : State) : Result := k v (s.retire 2 2)

/-- A read-class instruction on memory (R126): `base` cycles, one more on a page crossing (R125); `k` does the operation. -/
def readInstr (m : MemForm) (base : Nat) (k : Byte → State → Result) (s : State) : Result :=
  match s.pointerRefused m with
  | some z => .refused (.ioPointerUnderDummy z)
  | none => k (s.operandByte m) ((s.afterOperand m).retire m.mode.length (base + s.pageCost m))

/-- A write-class instruction (R126): no read of the EA; a port write that the map declares invalid faults and commits nothing
(R67, R281). `op` is the opcode, for the fault record. -/
def writeInstr (op : Byte) (m : MemForm) (base : Nat) (v : Byte) (s : State) : Result :=
  match s.pointerRefused m with
  | some z => .refused (.ioPointerUnderDummy z)
  | none =>
    let s1 := s.writeDummy m (s.resolve m)
    if s1.bankWriteInvalid (s.resolve m).ea v then .fault (.invalidBankConfig s.pc op)
    else .next ((s1.memWrite (s.resolve m).ea v).retire m.mode.length base)

/-- The state in which a read-modify-write instruction reads its operand: after the dummy read (R127 b). -/
def State.rmwState (s : State) (m : MemForm) : State := s.writeDummy m (s.resolve m)

/-- The byte a read-modify-write instruction reads (R126). -/
def State.rmwByte (s : State) (m : MemForm) : Byte := (s.rmwState m).peek (s.resolve m).ea

/-- The state after the read of a read-modify-write instruction. -/
def State.afterRmwRead (s : State) (m : MemForm) : State := (s.rmwState m).afterRead (s.resolve m).ea

/-- The write of a read-modify-write instruction (R126): the new value `v'` once; under `NMOS_DUMMY` the old value `v` first
(R127 c, log 21). -/
def State.rmwWrite (s : State) (ea : Addr) (v v' : Byte) : State :=
  match s.cfg.busFidelity with
  | .logical => s.memWrite ea v'
  | .nmosDummy => (s.memWrite ea v).memWrite ea v'

/-- A write of `rmwWrite` that the map declares invalid (R67). -/
def State.rmwInvalid (s : State) (ea : Addr) (v v' : Byte) : Bool :=
  match s.cfg.busFidelity with
  | .logical => s.bankWriteInvalid ea v'
  | .nmosDummy => s.bankWriteInvalid ea v || (s.memWrite ea v).bankWriteInvalid ea v'

/-- A read-modify-write instruction on memory (R126): read, apply `f` to the byte and P, write. Fixed cost (R125). -/
def rmwInstr (op : Byte) (m : MemForm) (base : Nat) (f : Byte → Flags → Byte × Flags) (s : State) : Result :=
  match s.pointerRefused m with
  | some z => .refused (.ioPointerUnderDummy z)
  | none =>
    let v := s.rmwByte m
    let r := f v s.p
    let s1 := s.afterRmwRead m
    if s1.rmwInvalid (s.resolve m).ea v r.1 then .fault (.invalidBankConfig s.pc op)
    else .next ((s1.rmwWrite (s.resolve m).ea v r.1).setP r.2 |>.retire m.mode.length base)

/-- A shift or rotate of the accumulator (R112): 1 byte, 2 cycles. -/
def accInstr (f : Byte → Flags → Byte × Flags) (s : State) : Result := .next ((s.setAP (f s.a s.p)).retire 1 2)

/-- An implied instruction of 1 byte that does `f` and costs `cost` cycles (R111). -/
def impInstr (cost : Nat) (f : State → State) (s : State) : Result := .next ((f s).retire 1 cost)

/-! ### The operations of the read class -/

/-- `A <- v; SetNZ(v)` (R140). -/
def opLda (v : Byte) (s : State) : Result := .next (s.loadA v)

/-- `X <- v; SetNZ(v)` (R141). -/
def opLdx (v : Byte) (s : State) : Result := .next (s.loadX v)

/-- `Y <- v; SetNZ(v)` (R142). -/
def opLdy (v : Byte) (s : State) : Result := .next (s.loadY v)

/-- A decimal ADC or SBC that `VALID_ONLY` refuses (R176). -/
def State.bcdRefused (s : State) (m : Byte) : Bool :=
  match s.cfg.decimal with
  | .nmosExact => false
  | .validOnly => s.p.d && !(validBcd s.a && validBcd m)

/-- ADC (R170). -/
def opAdc (m : Byte) (s : State) : Result :=
  if s.bcdRefused m then .refused (.invalidBcd s.a m) else .next (s.setAP (adcResult s.a m s.p))

/-- SBC (R173). -/
def opSbc (m : Byte) (s : State) : Result :=
  if s.bcdRefused m then .refused (.invalidBcd s.a m) else .next (s.setAP (sbcResult s.a m s.p))

/-- CMP (R177). -/
def opCmp (m : Byte) (s : State) : Result := .next (s.setP (compareFlags s.a m s.p))

/-- CPX (R178). -/
def opCpx (m : Byte) (s : State) : Result := .next (s.setP (compareFlags s.x m s.p))

/-- CPY (R179). -/
def opCpy (m : Byte) (s : State) : Result := .next (s.setP (compareFlags s.y m s.p))

/-- AND (R200). -/
def opAnd (v : Byte) (s : State) : Result := .next (s.loadA (s.a &&& v))

/-- ORA (R201). -/
def opOra (v : Byte) (s : State) : Result := .next (s.loadA (s.a ||| v))

/-- EOR (R202). -/
def opEor (v : Byte) (s : State) : Result := .next (s.loadA (s.a ^^^ v))

/-- BIT (R203). -/
def opBit (m : Byte) (s : State) : Result := .next (s.setP (bitFlags s.a m s.p))

/-! ### Branches -/

/-- The address of the instruction after a branch, `PCn = PC0 + 2` (R123). -/
def State.branchNext (s : State) : Addr := s.pc + 2#16

/-- The target of a branch (R123). -/
def State.branchTarget (s : State) (rel : Byte) : Addr := s.branchNext + sext16 rel

/-- Whether a branch is taken (R221 to R228); false of what is no branch. -/
def branchTaken (m : Mnemonic) (p : Flags) : Bool :=
  match m with
  | .BCC => !p.c
  | .BCS => p.c
  | .BEQ => p.z
  | .BNE => !p.z
  | .BMI => p.n
  | .BPL => !p.n
  | .BVC => !p.v
  | .BVS => p.v
  | _ => false

/-- The common branch rule (R220): not taken 2 cycles, taken 3, taken to another page 4. -/
def branchInstr (taken : Bool) (rel : Byte) (s : State) : Result :=
  if taken then
    .next (s.jumpTo (s.branchTarget rel) (3 + bitNat (pageCross s.branchNext (s.branchTarget rel))))
  else .next (s.jumpTo s.branchNext 2)

end Sys2Proof.Machine
end

