-- ==== Sys2Proof/Machine/Arithmetic.lean ====
section
/-! DEFINITION. The meanings of arithmetic, compare, increment and decrement (43_arithmetic.md R170 to R186).
`s.pc` is the address of the opcode (PC0); each meaning moves PC past the instruction and adds its cycles (30_encoding.md R98). -/

namespace Sys2Proof.Machine

/-- ADC (zp,X), 0x61 (R170). -/
def execAdcIndx (zp : Byte) (s : State) : Result := readInstr (.indx zp) 6 opAdc s

/-- ADC zp, 0x65 (R170). -/
def execAdcZp (zp : Byte) (s : State) : Result := readInstr (.zp zp) 3 opAdc s

/-- ADC #imm, 0x69 (R170). -/
def execAdcImm (imm : Byte) (s : State) : Result := immInstr imm opAdc s

/-- ADC addr, 0x6D (R170). -/
def execAdcAbs (addr : Addr) (s : State) : Result := readInstr (.abs addr) 4 opAdc s

/-- ADC (zp),Y, 0x71 (R170). -/
def execAdcIndy (zp : Byte) (s : State) : Result := readInstr (.indy zp) 5 opAdc s

/-- ADC zp,X, 0x75 (R170). -/
def execAdcZpx (zp : Byte) (s : State) : Result := readInstr (.zpx zp) 4 opAdc s

/-- ADC addr,Y, 0x79 (R170). -/
def execAdcAbsy (addr : Addr) (s : State) : Result := readInstr (.absy addr) 4 opAdc s

/-- ADC addr,X, 0x7D (R170). -/
def execAdcAbsx (addr : Addr) (s : State) : Result := readInstr (.absx addr) 4 opAdc s

/-- SBC (zp,X), 0xE1 (R173). -/
def execSbcIndx (zp : Byte) (s : State) : Result := readInstr (.indx zp) 6 opSbc s

/-- SBC zp, 0xE5 (R173). -/
def execSbcZp (zp : Byte) (s : State) : Result := readInstr (.zp zp) 3 opSbc s

/-- SBC #imm, 0xE9 (R173). -/
def execSbcImm (imm : Byte) (s : State) : Result := immInstr imm opSbc s

/-- SBC addr, 0xED (R173). -/
def execSbcAbs (addr : Addr) (s : State) : Result := readInstr (.abs addr) 4 opSbc s

/-- SBC (zp),Y, 0xF1 (R173). -/
def execSbcIndy (zp : Byte) (s : State) : Result := readInstr (.indy zp) 5 opSbc s

/-- SBC zp,X, 0xF5 (R173). -/
def execSbcZpx (zp : Byte) (s : State) : Result := readInstr (.zpx zp) 4 opSbc s

/-- SBC addr,Y, 0xF9 (R173). -/
def execSbcAbsy (addr : Addr) (s : State) : Result := readInstr (.absy addr) 4 opSbc s

/-- SBC addr,X, 0xFD (R173). -/
def execSbcAbsx (addr : Addr) (s : State) : Result := readInstr (.absx addr) 4 opSbc s

/-- CMP (zp,X), 0xC1 (R177). -/
def execCmpIndx (zp : Byte) (s : State) : Result := readInstr (.indx zp) 6 opCmp s

/-- CMP zp, 0xC5 (R177). -/
def execCmpZp (zp : Byte) (s : State) : Result := readInstr (.zp zp) 3 opCmp s

/-- CMP #imm, 0xC9 (R177). -/
def execCmpImm (imm : Byte) (s : State) : Result := immInstr imm opCmp s

/-- CMP addr, 0xCD (R177). -/
def execCmpAbs (addr : Addr) (s : State) : Result := readInstr (.abs addr) 4 opCmp s

/-- CMP (zp),Y, 0xD1 (R177). -/
def execCmpIndy (zp : Byte) (s : State) : Result := readInstr (.indy zp) 5 opCmp s

/-- CMP zp,X, 0xD5 (R177). -/
def execCmpZpx (zp : Byte) (s : State) : Result := readInstr (.zpx zp) 4 opCmp s

/-- CMP addr,Y, 0xD9 (R177). -/
def execCmpAbsy (addr : Addr) (s : State) : Result := readInstr (.absy addr) 4 opCmp s

/-- CMP addr,X, 0xDD (R177). -/
def execCmpAbsx (addr : Addr) (s : State) : Result := readInstr (.absx addr) 4 opCmp s

/-- CPX #imm, 0xE0 (R178). -/
def execCpxImm (imm : Byte) (s : State) : Result := immInstr imm opCpx s

/-- CPX zp, 0xE4 (R178). -/
def execCpxZp (zp : Byte) (s : State) : Result := readInstr (.zp zp) 3 opCpx s

/-- CPX addr, 0xEC (R178). -/
def execCpxAbs (addr : Addr) (s : State) : Result := readInstr (.abs addr) 4 opCpx s

/-- CPY #imm, 0xC0 (R179). -/
def execCpyImm (imm : Byte) (s : State) : Result := immInstr imm opCpy s

/-- CPY zp, 0xC4 (R179). -/
def execCpyZp (zp : Byte) (s : State) : Result := readInstr (.zp zp) 3 opCpy s

/-- CPY addr, 0xCC (R179). -/
def execCpyAbs (addr : Addr) (s : State) : Result := readInstr (.abs addr) 4 opCpy s

/-- INC zp, 0xE6 (R180). -/
def execIncZp (zp : Byte) (s : State) : Result := rmwInstr 0xE6#8 (.zp zp) 5 incResult s

/-- INC addr, 0xEE (R180). -/
def execIncAbs (addr : Addr) (s : State) : Result := rmwInstr 0xEE#8 (.abs addr) 6 incResult s

/-- INC zp,X, 0xF6 (R180). -/
def execIncZpx (zp : Byte) (s : State) : Result := rmwInstr 0xF6#8 (.zpx zp) 6 incResult s

/-- INC addr,X, 0xFE (R180). -/
def execIncAbsx (addr : Addr) (s : State) : Result := rmwInstr 0xFE#8 (.absx addr) 7 incResult s

/-- DEC zp, 0xC6 (R181). -/
def execDecZp (zp : Byte) (s : State) : Result := rmwInstr 0xC6#8 (.zp zp) 5 decResult s

/-- DEC addr, 0xCE (R181). -/
def execDecAbs (addr : Addr) (s : State) : Result := rmwInstr 0xCE#8 (.abs addr) 6 decResult s

/-- DEC zp,X, 0xD6 (R181). -/
def execDecZpx (zp : Byte) (s : State) : Result := rmwInstr 0xD6#8 (.zpx zp) 6 decResult s

/-- DEC addr,X, 0xDE (R181). -/
def execDecAbsx (addr : Addr) (s : State) : Result := rmwInstr 0xDE#8 (.absx addr) 7 decResult s

/-- INX, 0xE8 (R182). -/
def execInx (s : State) : Result := impInstr 2 (fun t => t.loadX (t.x + 1#8)) s

/-- INY, 0xC8 (R183). -/
def execIny (s : State) : Result := impInstr 2 (fun t => t.loadY (t.y + 1#8)) s

/-- DEX, 0xCA (R184). -/
def execDex (s : State) : Result := impInstr 2 (fun t => t.loadX (t.x - 1#8)) s

/-- DEY, 0x88 (R185). -/
def execDey (s : State) : Result := impInstr 2 (fun t => t.loadY (t.y - 1#8)) s

end Sys2Proof.Machine
end

