-- ==== Sys2Proof/Machine/Control.lean ====
section
/-! DEFINITION. The meanings of branches, jumps, subroutines, RTI and BRK (45_control_transfer.md R220 to R233).
`s.pc` is the address of the opcode (PC0); each meaning moves PC past the instruction and adds its cycles (30_encoding.md R98). -/

namespace Sys2Proof.Machine

/-- BCC rel, 0x90 (R221). -/
def execBcc (rel : Byte) (s : State) : Result := branchInstr (!s.p.c) rel s

/-- BCS rel, 0xB0 (R222). -/
def execBcs (rel : Byte) (s : State) : Result := branchInstr s.p.c rel s

/-- BEQ rel, 0xF0 (R223). -/
def execBeq (rel : Byte) (s : State) : Result := branchInstr s.p.z rel s

/-- BNE rel, 0xD0 (R224). -/
def execBne (rel : Byte) (s : State) : Result := branchInstr (!s.p.z) rel s

/-- BMI rel, 0x30 (R225). -/
def execBmi (rel : Byte) (s : State) : Result := branchInstr s.p.n rel s

/-- BPL rel, 0x10 (R226). -/
def execBpl (rel : Byte) (s : State) : Result := branchInstr (!s.p.n) rel s

/-- BVC rel, 0x50 (R227). -/
def execBvc (rel : Byte) (s : State) : Result := branchInstr (!s.p.v) rel s

/-- BVS rel, 0x70 (R228). -/
def execBvs (rel : Byte) (s : State) : Result := branchInstr s.p.v rel s

/-- JMP addr, 0x4C (R229). -/
def execJmpAbs (addr : Addr) (s : State) : Result := .next (s.jumpTo addr 3)

/-- JMP (ptr), 0x6C (R229). -/
def execJmpInd (ptr : Addr) (s : State) : Result := .next ((s.read16pw ptr).2.jumpTo (s.read16pw ptr).1 5)

/-- JSR addr, 0x20 (R230). -/
def execJsr (addr : Addr) (s : State) : Result := .next ((s.pushWord (s.pc + 2#16)).jumpTo addr 6)

/-- RTS, 0x60 (R231). -/
def execRts (s : State) : Result := .next (s.pullWord.2.jumpTo (s.pullWord.1 + 1#16) 6)

/-- RTI, 0x40 (R232). -/
def execRti (s : State) : Result := .next { s.returnFromException with cycles := s.cycles + 6 }

/-- BRK, 0x00 (R233). -/
def execBrk (s : State) : Result := .next { s.takeException (s.pc + 2#16) true 0xFFFE#16 with cycles := s.cycles + 7 }

end Sys2Proof.Machine
end

