-- ==== Sys2Proof/Machine/FlagOps.lean ====
section
/-! DEFINITION. The meanings of the flag instructions and NOP (46_flags_nop.md R240 to R247).
`s.pc` is the address of the opcode (PC0); each meaning moves PC past the instruction and adds its cycles (30_encoding.md R98). -/

namespace Sys2Proof.Machine

/-- CLC, 0x18 (R240). -/
def execClc (s : State) : Result := impInstr 2 (fun t => t.setP { t.p with c := false }) s

/-- SEC, 0x38 (R241). -/
def execSec (s : State) : Result := impInstr 2 (fun t => t.setP { t.p with c := true }) s

/-- CLI, 0x58 (R242). -/
def execCli (s : State) : Result := impInstr 2 (fun t => t.setP { t.p with i := false }) s

/-- SEI, 0x78 (R243). -/
def execSei (s : State) : Result := impInstr 2 (fun t => t.setP { t.p with i := true }) s

/-- CLD, 0xD8 (R244). -/
def execCld (s : State) : Result := impInstr 2 (fun t => t.setP { t.p with d := false }) s

/-- SED, 0xF8 (R245). -/
def execSed (s : State) : Result := impInstr 2 (fun t => t.setP { t.p with d := true }) s

/-- CLV, 0xB8 (R246). -/
def execClv (s : State) : Result := impInstr 2 (fun t => t.setP { t.p with v := false }) s

/-- NOP, 0xEA (R247). -/
def execNop (s : State) : Result := impInstr 2 (fun t => t) s

end Sys2Proof.Machine
end

