-- ==== Sys2Proof/Machine/LoadStore.lean ====
section
/-! DEFINITION. The meanings of loads, stores and register transfers (41_load_store_transfer.md R140 to R151).
`s.pc` is the address of the opcode (PC0); each meaning moves PC past the instruction and adds its cycles (30_encoding.md R98). -/

namespace Sys2Proof.Machine

/-- LDA (zp,X), 0xA1 (R140). -/
def execLdaIndx (zp : Byte) (s : State) : Result := readInstr (.indx zp) 6 opLda s

/-- LDA zp, 0xA5 (R140). -/
def execLdaZp (zp : Byte) (s : State) : Result := readInstr (.zp zp) 3 opLda s

/-- LDA #imm, 0xA9 (R140). -/
def execLdaImm (imm : Byte) (s : State) : Result := immInstr imm opLda s

/-- LDA addr, 0xAD (R140). -/
def execLdaAbs (addr : Addr) (s : State) : Result := readInstr (.abs addr) 4 opLda s

/-- LDA (zp),Y, 0xB1 (R140). -/
def execLdaIndy (zp : Byte) (s : State) : Result := readInstr (.indy zp) 5 opLda s

/-- LDA zp,X, 0xB5 (R140). -/
def execLdaZpx (zp : Byte) (s : State) : Result := readInstr (.zpx zp) 4 opLda s

/-- LDA addr,Y, 0xB9 (R140). -/
def execLdaAbsy (addr : Addr) (s : State) : Result := readInstr (.absy addr) 4 opLda s

/-- LDA addr,X, 0xBD (R140). -/
def execLdaAbsx (addr : Addr) (s : State) : Result := readInstr (.absx addr) 4 opLda s

/-- LDX #imm, 0xA2 (R141). -/
def execLdxImm (imm : Byte) (s : State) : Result := immInstr imm opLdx s

/-- LDX zp, 0xA6 (R141). -/
def execLdxZp (zp : Byte) (s : State) : Result := readInstr (.zp zp) 3 opLdx s

/-- LDX addr, 0xAE (R141). -/
def execLdxAbs (addr : Addr) (s : State) : Result := readInstr (.abs addr) 4 opLdx s

/-- LDX zp,Y, 0xB6 (R141). -/
def execLdxZpy (zp : Byte) (s : State) : Result := readInstr (.zpy zp) 4 opLdx s

/-- LDX addr,Y, 0xBE (R141). -/
def execLdxAbsy (addr : Addr) (s : State) : Result := readInstr (.absy addr) 4 opLdx s

/-- LDY #imm, 0xA0 (R142). -/
def execLdyImm (imm : Byte) (s : State) : Result := immInstr imm opLdy s

/-- LDY zp, 0xA4 (R142). -/
def execLdyZp (zp : Byte) (s : State) : Result := readInstr (.zp zp) 3 opLdy s

/-- LDY addr, 0xAC (R142). -/
def execLdyAbs (addr : Addr) (s : State) : Result := readInstr (.abs addr) 4 opLdy s

/-- LDY zp,X, 0xB4 (R142). -/
def execLdyZpx (zp : Byte) (s : State) : Result := readInstr (.zpx zp) 4 opLdy s

/-- LDY addr,X, 0xBC (R142). -/
def execLdyAbsx (addr : Addr) (s : State) : Result := readInstr (.absx addr) 4 opLdy s

/-- STA (zp,X), 0x81 (R143). -/
def execStaIndx (zp : Byte) (s : State) : Result := writeInstr 0x81#8 (.indx zp) 6 s.a s

/-- STA zp, 0x85 (R143). -/
def execStaZp (zp : Byte) (s : State) : Result := writeInstr 0x85#8 (.zp zp) 3 s.a s

/-- STA addr, 0x8D (R143). -/
def execStaAbs (addr : Addr) (s : State) : Result := writeInstr 0x8D#8 (.abs addr) 4 s.a s

/-- STA (zp),Y, 0x91 (R143). -/
def execStaIndy (zp : Byte) (s : State) : Result := writeInstr 0x91#8 (.indy zp) 6 s.a s

/-- STA zp,X, 0x95 (R143). -/
def execStaZpx (zp : Byte) (s : State) : Result := writeInstr 0x95#8 (.zpx zp) 4 s.a s

/-- STA addr,Y, 0x99 (R143). -/
def execStaAbsy (addr : Addr) (s : State) : Result := writeInstr 0x99#8 (.absy addr) 5 s.a s

/-- STA addr,X, 0x9D (R143). -/
def execStaAbsx (addr : Addr) (s : State) : Result := writeInstr 0x9D#8 (.absx addr) 5 s.a s

/-- STX zp, 0x86 (R144). -/
def execStxZp (zp : Byte) (s : State) : Result := writeInstr 0x86#8 (.zp zp) 3 s.x s

/-- STX addr, 0x8E (R144). -/
def execStxAbs (addr : Addr) (s : State) : Result := writeInstr 0x8E#8 (.abs addr) 4 s.x s

/-- STX zp,Y, 0x96 (R144). -/
def execStxZpy (zp : Byte) (s : State) : Result := writeInstr 0x96#8 (.zpy zp) 4 s.x s

/-- STY zp, 0x84 (R145). -/
def execStyZp (zp : Byte) (s : State) : Result := writeInstr 0x84#8 (.zp zp) 3 s.y s

/-- STY addr, 0x8C (R145). -/
def execStyAbs (addr : Addr) (s : State) : Result := writeInstr 0x8C#8 (.abs addr) 4 s.y s

/-- STY zp,X, 0x94 (R145). -/
def execStyZpx (zp : Byte) (s : State) : Result := writeInstr 0x94#8 (.zpx zp) 4 s.y s

/-- TAX, 0xAA (R146). -/
def execTax (s : State) : Result := impInstr 2 (fun t => t.loadX t.a) s

/-- TAY, 0xA8 (R147). -/
def execTay (s : State) : Result := impInstr 2 (fun t => t.loadY t.a) s

/-- TXA, 0x8A (R148). -/
def execTxa (s : State) : Result := impInstr 2 (fun t => t.loadA t.x) s

/-- TYA, 0x98 (R149). -/
def execTya (s : State) : Result := impInstr 2 (fun t => t.loadA t.y) s

/-- TSX, 0xBA (R150). -/
def execTsx (s : State) : Result := impInstr 2 (fun t => t.loadX t.sp) s

/-- TXS, 0x9A (R151). -/
def execTxs (s : State) : Result := impInstr 2 (fun t => { t with sp := t.x }) s

end Sys2Proof.Machine
end

