-- ==== Sys2Proof/Machine/Logic.lean ====
section
/-! DEFINITION. The meanings of logical operations, bit test, shifts and rotates (44_logic_shift.md R200 to R207).
`s.pc` is the address of the opcode (PC0); each meaning moves PC past the instruction and adds its cycles (30_encoding.md R98). -/

namespace Sys2Proof.Machine

/-- AND (zp,X), 0x21 (R200). -/
def execAndIndx (zp : Byte) (s : State) : Result := readInstr (.indx zp) 6 opAnd s

/-- AND zp, 0x25 (R200). -/
def execAndZp (zp : Byte) (s : State) : Result := readInstr (.zp zp) 3 opAnd s

/-- AND #imm, 0x29 (R200). -/
def execAndImm (imm : Byte) (s : State) : Result := immInstr imm opAnd s

/-- AND addr, 0x2D (R200). -/
def execAndAbs (addr : Addr) (s : State) : Result := readInstr (.abs addr) 4 opAnd s

/-- AND (zp),Y, 0x31 (R200). -/
def execAndIndy (zp : Byte) (s : State) : Result := readInstr (.indy zp) 5 opAnd s

/-- AND zp,X, 0x35 (R200). -/
def execAndZpx (zp : Byte) (s : State) : Result := readInstr (.zpx zp) 4 opAnd s

/-- AND addr,Y, 0x39 (R200). -/
def execAndAbsy (addr : Addr) (s : State) : Result := readInstr (.absy addr) 4 opAnd s

/-- AND addr,X, 0x3D (R200). -/
def execAndAbsx (addr : Addr) (s : State) : Result := readInstr (.absx addr) 4 opAnd s

/-- ORA (zp,X), 0x01 (R201). -/
def execOraIndx (zp : Byte) (s : State) : Result := readInstr (.indx zp) 6 opOra s

/-- ORA zp, 0x05 (R201). -/
def execOraZp (zp : Byte) (s : State) : Result := readInstr (.zp zp) 3 opOra s

/-- ORA #imm, 0x09 (R201). -/
def execOraImm (imm : Byte) (s : State) : Result := immInstr imm opOra s

/-- ORA addr, 0x0D (R201). -/
def execOraAbs (addr : Addr) (s : State) : Result := readInstr (.abs addr) 4 opOra s

/-- ORA (zp),Y, 0x11 (R201). -/
def execOraIndy (zp : Byte) (s : State) : Result := readInstr (.indy zp) 5 opOra s

/-- ORA zp,X, 0x15 (R201). -/
def execOraZpx (zp : Byte) (s : State) : Result := readInstr (.zpx zp) 4 opOra s

/-- ORA addr,Y, 0x19 (R201). -/
def execOraAbsy (addr : Addr) (s : State) : Result := readInstr (.absy addr) 4 opOra s

/-- ORA addr,X, 0x1D (R201). -/
def execOraAbsx (addr : Addr) (s : State) : Result := readInstr (.absx addr) 4 opOra s

/-- EOR (zp,X), 0x41 (R202). -/
def execEorIndx (zp : Byte) (s : State) : Result := readInstr (.indx zp) 6 opEor s

/-- EOR zp, 0x45 (R202). -/
def execEorZp (zp : Byte) (s : State) : Result := readInstr (.zp zp) 3 opEor s

/-- EOR #imm, 0x49 (R202). -/
def execEorImm (imm : Byte) (s : State) : Result := immInstr imm opEor s

/-- EOR addr, 0x4D (R202). -/
def execEorAbs (addr : Addr) (s : State) : Result := readInstr (.abs addr) 4 opEor s

/-- EOR (zp),Y, 0x51 (R202). -/
def execEorIndy (zp : Byte) (s : State) : Result := readInstr (.indy zp) 5 opEor s

/-- EOR zp,X, 0x55 (R202). -/
def execEorZpx (zp : Byte) (s : State) : Result := readInstr (.zpx zp) 4 opEor s

/-- EOR addr,Y, 0x59 (R202). -/
def execEorAbsy (addr : Addr) (s : State) : Result := readInstr (.absy addr) 4 opEor s

/-- EOR addr,X, 0x5D (R202). -/
def execEorAbsx (addr : Addr) (s : State) : Result := readInstr (.absx addr) 4 opEor s

/-- BIT zp, 0x24 (R203). -/
def execBitZp (zp : Byte) (s : State) : Result := readInstr (.zp zp) 3 opBit s

/-- BIT addr, 0x2C (R203). -/
def execBitAbs (addr : Addr) (s : State) : Result := readInstr (.abs addr) 4 opBit s

/-- ASL zp, 0x06 (R204). -/
def execAslZp (zp : Byte) (s : State) : Result := rmwInstr 0x06#8 (.zp zp) 5 aslResult s

/-- ASL A, 0x0A (R204). -/
def execAslAcc (s : State) : Result := accInstr aslResult s

/-- ASL addr, 0x0E (R204). -/
def execAslAbs (addr : Addr) (s : State) : Result := rmwInstr 0x0E#8 (.abs addr) 6 aslResult s

/-- ASL zp,X, 0x16 (R204). -/
def execAslZpx (zp : Byte) (s : State) : Result := rmwInstr 0x16#8 (.zpx zp) 6 aslResult s

/-- ASL addr,X, 0x1E (R204). -/
def execAslAbsx (addr : Addr) (s : State) : Result := rmwInstr 0x1E#8 (.absx addr) 7 aslResult s

/-- LSR zp, 0x46 (R205). -/
def execLsrZp (zp : Byte) (s : State) : Result := rmwInstr 0x46#8 (.zp zp) 5 lsrResult s

/-- LSR A, 0x4A (R205). -/
def execLsrAcc (s : State) : Result := accInstr lsrResult s

/-- LSR addr, 0x4E (R205). -/
def execLsrAbs (addr : Addr) (s : State) : Result := rmwInstr 0x4E#8 (.abs addr) 6 lsrResult s

/-- LSR zp,X, 0x56 (R205). -/
def execLsrZpx (zp : Byte) (s : State) : Result := rmwInstr 0x56#8 (.zpx zp) 6 lsrResult s

/-- LSR addr,X, 0x5E (R205). -/
def execLsrAbsx (addr : Addr) (s : State) : Result := rmwInstr 0x5E#8 (.absx addr) 7 lsrResult s

/-- ROL zp, 0x26 (R206). -/
def execRolZp (zp : Byte) (s : State) : Result := rmwInstr 0x26#8 (.zp zp) 5 rolResult s

/-- ROL A, 0x2A (R206). -/
def execRolAcc (s : State) : Result := accInstr rolResult s

/-- ROL addr, 0x2E (R206). -/
def execRolAbs (addr : Addr) (s : State) : Result := rmwInstr 0x2E#8 (.abs addr) 6 rolResult s

/-- ROL zp,X, 0x36 (R206). -/
def execRolZpx (zp : Byte) (s : State) : Result := rmwInstr 0x36#8 (.zpx zp) 6 rolResult s

/-- ROL addr,X, 0x3E (R206). -/
def execRolAbsx (addr : Addr) (s : State) : Result := rmwInstr 0x3E#8 (.absx addr) 7 rolResult s

/-- ROR zp, 0x66 (R207). -/
def execRorZp (zp : Byte) (s : State) : Result := rmwInstr 0x66#8 (.zp zp) 5 rorResult s

/-- ROR A, 0x6A (R207). -/
def execRorAcc (s : State) : Result := accInstr rorResult s

/-- ROR addr, 0x6E (R207). -/
def execRorAbs (addr : Addr) (s : State) : Result := rmwInstr 0x6E#8 (.abs addr) 6 rorResult s

/-- ROR zp,X, 0x76 (R207). -/
def execRorZpx (zp : Byte) (s : State) : Result := rmwInstr 0x76#8 (.zpx zp) 6 rorResult s

/-- ROR addr,X, 0x7E (R207). -/
def execRorAbsx (addr : Addr) (s : State) : Result := rmwInstr 0x7E#8 (.absx addr) 7 rorResult s

end Sys2Proof.Machine
end

