-- ==== Sys2Proof/Machine/Stack.lean ====
section
/-! DEFINITION. The meanings of the stack instructions (42_stack.md R160 to R163).
`s.pc` is the address of the opcode (PC0); each meaning moves PC past the instruction and adds its cycles (30_encoding.md R98). -/

namespace Sys2Proof.Machine

/-- PHA, 0x48 (R160). -/
def execPha (s : State) : Result := impInstr 3 (fun t => t.push t.a) s

/-- PHP, 0x08 (R161). -/
def execPhp (s : State) : Result := impInstr 3 (fun t => t.push (t.p.pack true)) s

/-- PLA, 0x68 (R162). -/
def execPla (s : State) : Result := impInstr 4 (fun t => t.afterPull.loadA t.pullByte) s

/-- PLP, 0x28 (R163). -/
def execPlp (s : State) : Result := impInstr 4 (fun t => t.afterPull.setP (unpackFlags t.pullByte)) s

end Sys2Proof.Machine
end

