-- ==== Sys2Proof/Machine/Dispatch.lean ====
section
/-! DEFINITION. The dispatch: one arm per constructor of `Instr`, each one direct call of its meaning. -/

namespace Sys2Proof.Machine

def exec (i : Instr) (s : State) : Host.Outcome State Fault Refusal :=
  match i with
  | .ldaIndx zp => Sys2Proof.Machine.execLdaIndx zp s
  | .ldaZp zp => Sys2Proof.Machine.execLdaZp zp s
  | .ldaImm imm => Sys2Proof.Machine.execLdaImm imm s
  | .ldaAbs addr => Sys2Proof.Machine.execLdaAbs addr s
  | .ldaIndy zp => Sys2Proof.Machine.execLdaIndy zp s
  | .ldaZpx zp => Sys2Proof.Machine.execLdaZpx zp s
  | .ldaAbsy addr => Sys2Proof.Machine.execLdaAbsy addr s
  | .ldaAbsx addr => Sys2Proof.Machine.execLdaAbsx addr s
  | .ldxImm imm => Sys2Proof.Machine.execLdxImm imm s
  | .ldxZp zp => Sys2Proof.Machine.execLdxZp zp s
  | .ldxAbs addr => Sys2Proof.Machine.execLdxAbs addr s
  | .ldxZpy zp => Sys2Proof.Machine.execLdxZpy zp s
  | .ldxAbsy addr => Sys2Proof.Machine.execLdxAbsy addr s
  | .ldyImm imm => Sys2Proof.Machine.execLdyImm imm s
  | .ldyZp zp => Sys2Proof.Machine.execLdyZp zp s
  | .ldyAbs addr => Sys2Proof.Machine.execLdyAbs addr s
  | .ldyZpx zp => Sys2Proof.Machine.execLdyZpx zp s
  | .ldyAbsx addr => Sys2Proof.Machine.execLdyAbsx addr s
  | .staIndx zp => Sys2Proof.Machine.execStaIndx zp s
  | .staZp zp => Sys2Proof.Machine.execStaZp zp s
  | .staAbs addr => Sys2Proof.Machine.execStaAbs addr s
  | .staIndy zp => Sys2Proof.Machine.execStaIndy zp s
  | .staZpx zp => Sys2Proof.Machine.execStaZpx zp s
  | .staAbsy addr => Sys2Proof.Machine.execStaAbsy addr s
  | .staAbsx addr => Sys2Proof.Machine.execStaAbsx addr s
  | .stxZp zp => Sys2Proof.Machine.execStxZp zp s
  | .stxAbs addr => Sys2Proof.Machine.execStxAbs addr s
  | .stxZpy zp => Sys2Proof.Machine.execStxZpy zp s
  | .styZp zp => Sys2Proof.Machine.execStyZp zp s
  | .styAbs addr => Sys2Proof.Machine.execStyAbs addr s
  | .styZpx zp => Sys2Proof.Machine.execStyZpx zp s
  | .tax => Sys2Proof.Machine.execTax s
  | .tay => Sys2Proof.Machine.execTay s
  | .txa => Sys2Proof.Machine.execTxa s
  | .tya => Sys2Proof.Machine.execTya s
  | .tsx => Sys2Proof.Machine.execTsx s
  | .txs => Sys2Proof.Machine.execTxs s
  | .pha => Sys2Proof.Machine.execPha s
  | .php => Sys2Proof.Machine.execPhp s
  | .pla => Sys2Proof.Machine.execPla s
  | .plp => Sys2Proof.Machine.execPlp s
  | .adcIndx zp => Sys2Proof.Machine.execAdcIndx zp s
  | .adcZp zp => Sys2Proof.Machine.execAdcZp zp s
  | .adcImm imm => Sys2Proof.Machine.execAdcImm imm s
  | .adcAbs addr => Sys2Proof.Machine.execAdcAbs addr s
  | .adcIndy zp => Sys2Proof.Machine.execAdcIndy zp s
  | .adcZpx zp => Sys2Proof.Machine.execAdcZpx zp s
  | .adcAbsy addr => Sys2Proof.Machine.execAdcAbsy addr s
  | .adcAbsx addr => Sys2Proof.Machine.execAdcAbsx addr s
  | .sbcIndx zp => Sys2Proof.Machine.execSbcIndx zp s
  | .sbcZp zp => Sys2Proof.Machine.execSbcZp zp s
  | .sbcImm imm => Sys2Proof.Machine.execSbcImm imm s
  | .sbcAbs addr => Sys2Proof.Machine.execSbcAbs addr s
  | .sbcIndy zp => Sys2Proof.Machine.execSbcIndy zp s
  | .sbcZpx zp => Sys2Proof.Machine.execSbcZpx zp s
  | .sbcAbsy addr => Sys2Proof.Machine.execSbcAbsy addr s
  | .sbcAbsx addr => Sys2Proof.Machine.execSbcAbsx addr s
  | .cmpIndx zp => Sys2Proof.Machine.execCmpIndx zp s
  | .cmpZp zp => Sys2Proof.Machine.execCmpZp zp s
  | .cmpImm imm => Sys2Proof.Machine.execCmpImm imm s
  | .cmpAbs addr => Sys2Proof.Machine.execCmpAbs addr s
  | .cmpIndy zp => Sys2Proof.Machine.execCmpIndy zp s
  | .cmpZpx zp => Sys2Proof.Machine.execCmpZpx zp s
  | .cmpAbsy addr => Sys2Proof.Machine.execCmpAbsy addr s
  | .cmpAbsx addr => Sys2Proof.Machine.execCmpAbsx addr s
  | .cpxImm imm => Sys2Proof.Machine.execCpxImm imm s
  | .cpxZp zp => Sys2Proof.Machine.execCpxZp zp s
  | .cpxAbs addr => Sys2Proof.Machine.execCpxAbs addr s
  | .cpyImm imm => Sys2Proof.Machine.execCpyImm imm s
  | .cpyZp zp => Sys2Proof.Machine.execCpyZp zp s
  | .cpyAbs addr => Sys2Proof.Machine.execCpyAbs addr s
  | .incZp zp => Sys2Proof.Machine.execIncZp zp s
  | .incAbs addr => Sys2Proof.Machine.execIncAbs addr s
  | .incZpx zp => Sys2Proof.Machine.execIncZpx zp s
  | .incAbsx addr => Sys2Proof.Machine.execIncAbsx addr s
  | .decZp zp => Sys2Proof.Machine.execDecZp zp s
  | .decAbs addr => Sys2Proof.Machine.execDecAbs addr s
  | .decZpx zp => Sys2Proof.Machine.execDecZpx zp s
  | .decAbsx addr => Sys2Proof.Machine.execDecAbsx addr s
  | .inx => Sys2Proof.Machine.execInx s
  | .iny => Sys2Proof.Machine.execIny s
  | .dex => Sys2Proof.Machine.execDex s
  | .dey => Sys2Proof.Machine.execDey s
  | .andIndx zp => Sys2Proof.Machine.execAndIndx zp s
  | .andZp zp => Sys2Proof.Machine.execAndZp zp s
  | .andImm imm => Sys2Proof.Machine.execAndImm imm s
  | .andAbs addr => Sys2Proof.Machine.execAndAbs addr s
  | .andIndy zp => Sys2Proof.Machine.execAndIndy zp s
  | .andZpx zp => Sys2Proof.Machine.execAndZpx zp s
  | .andAbsy addr => Sys2Proof.Machine.execAndAbsy addr s
  | .andAbsx addr => Sys2Proof.Machine.execAndAbsx addr s
  | .oraIndx zp => Sys2Proof.Machine.execOraIndx zp s
  | .oraZp zp => Sys2Proof.Machine.execOraZp zp s
  | .oraImm imm => Sys2Proof.Machine.execOraImm imm s
  | .oraAbs addr => Sys2Proof.Machine.execOraAbs addr s
  | .oraIndy zp => Sys2Proof.Machine.execOraIndy zp s
  | .oraZpx zp => Sys2Proof.Machine.execOraZpx zp s
  | .oraAbsy addr => Sys2Proof.Machine.execOraAbsy addr s
  | .oraAbsx addr => Sys2Proof.Machine.execOraAbsx addr s
  | .eorIndx zp => Sys2Proof.Machine.execEorIndx zp s
  | .eorZp zp => Sys2Proof.Machine.execEorZp zp s
  | .eorImm imm => Sys2Proof.Machine.execEorImm imm s
  | .eorAbs addr => Sys2Proof.Machine.execEorAbs addr s
  | .eorIndy zp => Sys2Proof.Machine.execEorIndy zp s
  | .eorZpx zp => Sys2Proof.Machine.execEorZpx zp s
  | .eorAbsy addr => Sys2Proof.Machine.execEorAbsy addr s
  | .eorAbsx addr => Sys2Proof.Machine.execEorAbsx addr s
  | .bitZp zp => Sys2Proof.Machine.execBitZp zp s
  | .bitAbs addr => Sys2Proof.Machine.execBitAbs addr s
  | .aslZp zp => Sys2Proof.Machine.execAslZp zp s
  | .aslAcc => Sys2Proof.Machine.execAslAcc s
  | .aslAbs addr => Sys2Proof.Machine.execAslAbs addr s
  | .aslZpx zp => Sys2Proof.Machine.execAslZpx zp s
  | .aslAbsx addr => Sys2Proof.Machine.execAslAbsx addr s
  | .lsrZp zp => Sys2Proof.Machine.execLsrZp zp s
  | .lsrAcc => Sys2Proof.Machine.execLsrAcc s
  | .lsrAbs addr => Sys2Proof.Machine.execLsrAbs addr s
  | .lsrZpx zp => Sys2Proof.Machine.execLsrZpx zp s
  | .lsrAbsx addr => Sys2Proof.Machine.execLsrAbsx addr s
  | .rolZp zp => Sys2Proof.Machine.execRolZp zp s
  | .rolAcc => Sys2Proof.Machine.execRolAcc s
  | .rolAbs addr => Sys2Proof.Machine.execRolAbs addr s
  | .rolZpx zp => Sys2Proof.Machine.execRolZpx zp s
  | .rolAbsx addr => Sys2Proof.Machine.execRolAbsx addr s
  | .rorZp zp => Sys2Proof.Machine.execRorZp zp s
  | .rorAcc => Sys2Proof.Machine.execRorAcc s
  | .rorAbs addr => Sys2Proof.Machine.execRorAbs addr s
  | .rorZpx zp => Sys2Proof.Machine.execRorZpx zp s
  | .rorAbsx addr => Sys2Proof.Machine.execRorAbsx addr s
  | .bcc rel => Sys2Proof.Machine.execBcc rel s
  | .bcs rel => Sys2Proof.Machine.execBcs rel s
  | .beq rel => Sys2Proof.Machine.execBeq rel s
  | .bne rel => Sys2Proof.Machine.execBne rel s
  | .bmi rel => Sys2Proof.Machine.execBmi rel s
  | .bpl rel => Sys2Proof.Machine.execBpl rel s
  | .bvc rel => Sys2Proof.Machine.execBvc rel s
  | .bvs rel => Sys2Proof.Machine.execBvs rel s
  | .jmpAbs addr => Sys2Proof.Machine.execJmpAbs addr s
  | .jmpInd ptr => Sys2Proof.Machine.execJmpInd ptr s
  | .jsr addr => Sys2Proof.Machine.execJsr addr s
  | .rts => Sys2Proof.Machine.execRts s
  | .rti => Sys2Proof.Machine.execRti s
  | .brk => Sys2Proof.Machine.execBrk s
  | .clc => Sys2Proof.Machine.execClc s
  | .sec => Sys2Proof.Machine.execSec s
  | .cli => Sys2Proof.Machine.execCli s
  | .sei => Sys2Proof.Machine.execSei s
  | .cld => Sys2Proof.Machine.execCld s
  | .sed => Sys2Proof.Machine.execSed s
  | .clv => Sys2Proof.Machine.execClv s
  | .nop => Sys2Proof.Machine.execNop s

end Sys2Proof.Machine
end

