-- ==== Sys2Proof/Machine/Interrupts.lean ====
section
/-! DEFINITION. The interrupt controller and what a step does around an instruction (60_exceptions.md R260 to R268): the poll, the
service sequence, the fetch of one instruction, the bookkeeping when it commits. -/

namespace Sys2Proof.Machine

/-- The two interrupts (R261). -/
inductive Interrupt where
  | nmi | irq
deriving DecidableEq, Repr

/-- The vector each loads PC from (R65, R266). -/
def Interrupt.vector : Interrupt → Addr
  | .nmi => 0xFFFA#16
  | .irq => 0xFFFE#16

/-- `Ieff` (R265): P.I, or with `IRQ_MASK_LATENCY = 1` after CLI, SEI or PLP the P.I of that instruction's start. -/
def State.effectiveI (s : State) : Bool :=
  match s.cfg.irqLatency with
  | .zero => s.p.i
  | .one => if s.lastWasMaskOp then s.iAtLastBoundary else s.p.i

/-- The poll at a boundary (R260, R263, R264): none right after a service; NMI first; IRQ if it is not masked. -/
def State.poll (s : State) : Option Interrupt :=
  if s.lastWasService then none
  else if s.nmiPending then some .nmi
  else if s.irqPending && !s.effectiveI then some .irq
  else none

/-- Clear the latch of the serviced line (R266). -/
def State.clearLatch (k : Interrupt) (s : State) : State :=
  match k with
  | .nmi => { s with nmiPending := false }
  | .irq => { s with irqPending := false }

/-- `Service(kind)` (R266): PC and `Pack(0)` pushed, I set, PC from the vector, the latch cleared, 7 cycles;
`lastWasService <- 1` (R260). -/
def State.service (k : Interrupt) (s : State) : State :=
  { (s.takeException s.pc false k.vector).clearLatch k with cycles := s.cycles + 7, lastWasService := true }

/-- The step that services `k`: the chip reads the byte at PC and drops it, so under `NMOS_DUMMY` a PC in the I/O window is refused
(R127; log 22). -/
def State.takeInterrupt (k : Interrupt) (s : State) : Result :=
  if s.fetchRefused s.pc then .refused (.ioPcUnderDummy s.pc) else .next (s.service k)

/-- The program-counter addresses that instruction `i`, its bytes fetched, reads without using the byte: the dummy reads that R127 does
not model. PRESUMED (log 22), the NMOS 6502's: a one-byte instruction reads the byte after it, and RTS also the address it pulls; a
taken branch reads the next instruction's first byte and, to another page, the target before its high byte is corrected. -/
def State.pcDummyReads (s : State) (i : Instr) : List Addr :=
  match i.form with
  | .imp =>
    match i.mnemonic with
    | .RTS => [s.pc + 1#16, s.pullWord.1]
    | _ => [s.pc + 1#16]
  | .acc => [s.pc + 1#16]
  | .rel b =>
    if branchTaken i.mnemonic s.p then
      if pageCross s.branchNext (s.branchTarget b) then
        [s.branchNext, wordOf (hiByte s.branchNext) (loByte (s.branchTarget b))]
      else [s.branchNext]
    else []
  | .imm _ | .mem _ | .ind _ => []

/-- The first dummy read of the program-counter address that lies in the I/O window under `NMOS_DUMMY`: the step "must" be refused
(R127; log 22). -/
def State.pcDummyRefused (s : State) (i : Instr) : Option Addr := (s.pcDummyReads i).find? s.fetchRefused

/-- Fetch and decode of one instruction (R110): the opcode, then as many operand bytes as its mode has (R91). An illegal opcode
faults with nothing read after it (R94, R280). PC stays at the opcode; the meaning moves it. -/
def State.fetch (s : State) : Host.Outcome (Instr × State) Fault Refusal :=
  if s.fetchRefused s.pc then .refused (.ioFetchUnderDummy s.pc)
  else
    let op := s.peek s.pc
    match opcodeLength op with
    | none => .fault (.illegalOpcode s.pc op)
    | some n =>
      match (s.afterRead s.pc).fetchBytes (n - 1) (s.pc + 1#16) with
      | .fault f => .fault f
      | .refused r => .refused r
      | .next (bytes, t) =>
        match decode (op :: bytes) with
        | .ok (i, _) => .next (i, t)
        | .error _ => .fault (.illegalOpcode s.pc op)

/-- CLI, SEI and PLP: the instructions whose effect on the IRQ mask `IRQ_MASK_LATENCY` delays (R265). -/
def isMaskOp (i : Instr) : Bool :=
  match i.mnemonic with
  | .CLI | .SEI | .PLP => true
  | _ => false

/-- The bookkeeping of R260 when instruction `i`, which began with P.I = `i0`, commits: `iAtLastBoundary <- i0`,
`lastWasService <- 0`; and the model's own `lastWasMaskOp` (log 10). -/
def State.commit (i : Instr) (i0 : Bool) (s : State) : State :=
  { s with iAtLastBoundary := i0, lastWasService := false, lastWasMaskOp := isMaskOp i }

/-- The answer of a step whose instruction answered `r`. -/
def commitResult (i : Instr) (i0 : Bool) (r : Result) : Result :=
  match r with
  | .next t => .next (t.commit i i0)
  | .fault f => .fault f
  | .refused x => .refused x

/-- What a machine halted by `f` looks like (R38, R280, R281): nothing of the step commits, `halted` holds the record. After an
illegal opcode the one access made, the opcode read, is not undone for the device or the draws (R280; log 12). A machine already
halted is left as it is (R285). -/
def State.haltedBy (f : Fault) (s : State) : State :=
  match s.halted with
  | some _ => s
  | none =>
    match f with
    | .illegalOpcode _ _ => { s.afterRead s.pc with halted := some f }
    | .invalidBankConfig _ _ => { s with halted := some f }

end Sys2Proof.Machine
end

