-- ==== Sys2Proof/Machine/Load.lean ====
section
/-! DEFINITION. Placing one instruction where the next step fetches it (log 13): what a collaborator's load of a program does
(60_exceptions.md R262), for `State.withFetchWord`. -/

namespace Sys2Proof.Machine

/-- Three bytes into RAM from address `a` on, modulo 2^16. -/
def storeThree (ram : Memory) (a : Addr) (bytes : List Byte) : Memory :=
  ((ram.write a.toNat (bytes.getD 0 0#8)).write (a + 1#16).toNat (bytes.getD 1 0#8)).write (a + 2#16).toNat (bytes.getD 2 0#8)

/-- Where a load puts a program when PC does not already point into RAM (log 13). -/
def loadAddress : Addr := 0x0200#16

/-- The C64 map has both ROMs switched out and the three bytes from PC on are clear of the port: the fetch reads RAM. -/
def State.fetchesRam (s : State) : Bool :=
  decide (s.cfg.busMap = .c64) && !s.bankCfg.getLsbD 0 && !s.bankCfg.getLsbD 1
    && decide (2 ≤ s.pc.toNat) && decide (s.pc.toNat ≤ 0xFFFD)

/-- Place `bytes` where the next step fetches, and see to it that the next step is a fetch: no fault record, no pending interrupt.
Where PC does not already read RAM, the load is at `loadAddress` under the C64 map, which reads RAM there in every bank
configuration. -/
def State.placeInstruction (s : State) (bytes : List Byte) : State :=
  let s1 := { s with halted := none, nmiPending := false, irqPending := false }
  if s.fetchesRam then { s1 with ram := storeThree s.ram s.pc bytes }
  else { s1 with pc := loadAddress, cfg := { s.cfg with busMap := .c64 }, ram := storeThree s.ram loadAddress bytes }

end Sys2Proof.Machine
end

