-- ==== Sys2Proof/Machine/Step.lean ====
section
/-! DEFINITION. One step (60_exceptions.md R260): a halted machine takes none, an interrupt is serviced, or one instruction is
fetched, decoded and executed. -/

namespace Sys2Proof.Machine

/-- The instruction `i`, its bytes fetched: its meaning, but under `NMOS_DUMMY` refused where a dummy read of the program-counter
address lies in the I/O window (R127; log 22). -/
def State.execute (s : State) (i : Instr) : Host.Outcome State Fault Refusal :=
  match s.pcDummyRefused i with
  | some a => .refused (.ioPcUnderDummy a)
  | none => exec i s

/-- `Execute()` of R260 with its bookkeeping. -/
def State.runInstruction (s : State) : Host.Outcome State Fault Refusal :=
  match s.fetch with
  | .next (i, t) => commitResult i s.p.i (t.execute i)
  | .fault f => .fault f
  | .refused r => .refused r

/-- `Step(s)` (R260). A halted machine answers its fault record again (R285; log 11). -/
def step (s : State) : Host.Outcome State Fault Refusal :=
  match s.halted with
  | some f => .fault f
  | none =>
    match s.poll with
    | some k => s.takeInterrupt k
    | none => s.runInstruction

/-- The record R20 after `Step(s)`, on every outcome: the next state; after a fault the halted machine (R280); after a refusal
nothing commits (R284). -/
def State.advance (s : State) : State :=
  match step s with
  | .next t => t
  | .fault f => s.haltedBy f
  | .refused _ => s

/-- `s` with the instruction of a table word placed where `step` fetches its next instruction (log 13). -/
def State.withFetchWord (s : State) (nbits w : Nat) : State := s.placeInstruction (tableBytes nbits w)

end Sys2Proof.Machine
end

