-- ==== Sys2Proof/Machine/Boundary.lean ====
section
/-! DEFINITION. What happens between steps: reset (70_reset_and_hazards.md R300, R301) and the external collaborators
(60_exceptions.md R262, R296). Plain functions on states; `step` never calls them (log 16). -/

namespace Sys2Proof.Machine

/-- The values a reset draws (R46, R300): A, X, Y, N, V, D, Z, C. -/
structure ResetDraws where
  a : Byte
  x : Byte
  y : Byte
  n : Bool
  v : Bool
  d : Bool
  z : Bool
  c : Bool
deriving DecidableEq, Repr

/-- What a reset sets before it reads its vector (R300 steps 1, 2, 4, 5). RAM, PortDATA and the configuration are kept; so are the
model's own `draws` and `ioLog` (log 18). -/
def State.resetFields (d : ResetDraws) (s : State) : State :=
  { s with
    a := d.a, x := d.x, y := d.y, sp := 0xFD#8,
    p := { n := d.n, v := d.v, d := d.d, i := true, z := d.z, c := d.c },
    nmiPending := false, irqPending := false, cycles := 0, portDDR := 0x00#8, halted := none,
    lastWasService := false, iAtLastBoundary := true, lastWasMaskOp := false }

/-- A reset asserted at an instruction boundary (R300, R301): PC from `Read16(0xFFFC)` with `Cfg = 0b111`. -/
def State.applyReset (d : ResetDraws) (s : State) : State :=
  let s1 := s.resetFields d
  { (s1.read16 0xFFFC#16).2 with pc := (s1.read16 0xFFFC#16).1 }

/-- Power-on (R300): RAM and PortDATA are drawn as well; no free value has been drawn yet and no I/O access made. -/
def State.powerOn (cfg : Config) (d : ResetDraws) (portDATA : Byte) (ram : Memory) : State :=
  ({ State.reset with cfg := cfg, portDATA := portDATA, ram := ram }).applyReset d

/-- What a collaborator may do at an instruction boundary (R262, R296, R301). Reading `Cycles` or the snapshot changes nothing and
needs no event. -/
inductive BoundaryEvent where
  | raiseNmi
  | raiseIrq
  | busRead (addr : Addr)
  | busWrite (addr : Addr) (value : Byte)
  | reset (draws : ResetDraws)
  | pauseAndResume
deriving DecidableEq, Repr

/-- The state after an event. Setting a set latch has no further effect (R37). A raw write is the bus's, which never fails (R51;
log 17); pausing keeps the whole state (R296). -/
def State.boundary (s : State) : BoundaryEvent → State
  | .raiseNmi => { s with nmiPending := true }
  | .raiseIrq => { s with irqPending := true }
  | .busRead a => s.afterRead a
  | .busWrite a v => s.memWrite a v
  | .reset d => s.applyReset d
  | .pauseAndResume => s

end Sys2Proof.Machine
end

