-- ==== Sys2Proof/WellFormed.lean ====
section
/-! DEFINITION. What is checked before anything runs: the configuration (00_scope.md R9). Instructions need no check: their
operands carry their widths, and every operand byte is legal for every opcode (30_encoding.md R95). -/

namespace Sys2Proof

/-- Every term of `Instr` is well-formed (R95: "Operand bytes are never checked: every value of byte 1 and byte 2 is legal for
every opcode"). -/
def Instr.wf (_ : Instr) : Bool := true

/-- The expected image sizes (R7, R9). -/
def RomName.size : RomName → Nat
  | .basic => 8192
  | .kernal => 8192
  | .char => 4096

/-- One image: present, and of exactly its expected size (R9). -/
def checkRom (rom : RomName) (image : Option (List Byte)) : Except ConfigError Memory :=
  match image with
  | none => .error (.missingRom rom)
  | some bytes =>
    if bytes.length = rom.size then .ok (Memory.ofBytes 0 bytes)
    else .error (.missizedRom rom bytes.length)

/-- The clock selection, one of PAL and NTSC (R8, R9). DESIGN CHOICE (log 23): the text is compared letter for letter. -/
def checkClock (given : String) : Except ConfigError Clock :=
  if given = "PAL" then .ok .pal
  else if given = "NTSC" then .ok .ntsc
  else .error (.invalidClock given)

/-- The check made once before reset (R9): the first error found, or the configuration the machine is built with. -/
def RawConfig.check (r : RawConfig) : Except ConfigError Config :=
  match checkClock r.clock with
  | .error e => .error e
  | .ok clock =>
    match checkRom .basic r.basic with
    | .error e => .error e
    | .ok romBasic =>
      match checkRom .kernal r.kernal with
      | .error e => .error e
      | .ok romKernal =>
        match checkRom .char r.char with
        | .error e => .error e
        | .ok romChar =>
          .ok { clock := clock, throttle := r.throttle, pacerBatch := r.pacerBatch, decimal := r.decimal,
                irqLatency := r.irqLatency, busFidelity := r.busFidelity, busMap := r.busMap,
                romBasic := romBasic, romKernal := romKernal, romChar := romChar }

/-- A configuration a machine is built with (R9): images in canonical form, within their sizes. -/
def Config.wf (c : Config) : Bool :=
  c.romBasic.wf && c.romBasic.within 8192 && c.romKernal.wf && c.romKernal.within 8192
    && c.romChar.wf && c.romChar.within 4096

end Sys2Proof
end

