-- ==== Sys2Proof/Machine/Boot.lean ====
section
/-! DEFINITION. Building a machine from a configuration (00_scope.md R9, 60_exceptions.md R282, 70_reset_and_hazards.md R310): the
check first, and power-on only if it passes. -/

namespace Sys2Proof.Machine

/-- The machine after power-on, or the configuration error with which execution never begins (R9, R282). -/
def boot (raw : RawConfig) (d : ResetDraws) (portDATA : Byte) (ram : Memory) : Except ConfigError State :=
  match raw.check with
  | .error e => .error e
  | .ok cfg => .ok (State.powerOn cfg d portDATA ram)

end Sys2Proof.Machine
end

