-- ==== Sys2Proof/Machine/Pacer.lean ====
section
/-! DEFINITION. The pacer (60_exceptions.md R288): it gates when the core steps and changes no state. -/

namespace Sys2Proof.Machine

/-- One tick of a paced machine, with the cycles left of the current batch. With `THROTTLE = on` and none left, the pacer grants a
batch of `PACER_BATCH` and the core waits; otherwise the core takes a whole step and its cost is charged, an overrun to the next
batch. With `THROTTLE = off` batches are granted at once, so the core always steps (R288; log 19). -/
def pacedTick (credit : Int) (s : State) : Host.Outcome (Int × State) Fault Refusal :=
  if s.cfg.throttle && decide (credit ≤ 0) then .next (credit + s.cfg.pacerBatch.val, s)
  else
    match step s with
    | .next t => .next (credit - ((t.cycles : Int) - s.cycles), t)
    | .fault f => .fault f
    | .refused r => .refused r

/-- `k` ticks of a paced machine. -/
def pacedRun : Nat → Int → State → Host.Outcome (Int × State) Fault Refusal
  | 0, credit, s => .next (credit, s)
  | k + 1, credit, s =>
    match pacedTick credit s with
    | .next (credit', t) => pacedRun k credit' t
    | .fault f => .fault f
    | .refused r => .refused r

end Sys2Proof.Machine
end

