-- ==== Sys2Proof/Machine/Trace.lean ====
section
/-! DEFINITION. The trace output (60_exceptions.md R291). -/

namespace Sys2Proof.Machine

/-- The snapshot `A, X, Y, S, PC, Pack(1), Cycles, step cost` of R291. -/
structure Snapshot where
  a : Byte
  x : Byte
  y : Byte
  sp : Byte
  pc : Addr
  p : Byte
  cycles : Nat
  cost : Nat
deriving DecidableEq, Repr

/-- The snapshot offered after the step from `s` to `t` has committed (R291; the cost is the difference of `Cycles`, log 24). -/
def snapshot (s t : State) : Snapshot where
  a := t.a
  x := t.x
  y := t.y
  sp := t.sp
  pc := t.pc
  p := t.p.pack true
  cycles := t.cycles
  cost := t.cycles - s.cycles

end Sys2Proof.Machine
end

