-- ==== Sys2Proof/Safety.lean ====
section
/-! DEFINITION. What counts as a safe run: one that neither faults nor is refused (60_exceptions.md R280 to R285). -/

namespace Sys2Proof

/-- `n` steps from `s` all commit. -/
def RunsFor (n : Nat) (s : Machine.State) : Prop := ∃ t, core.run n s = .next t

/-- No step from `s` on ever stops. -/
def Safe (s : Machine.State) : Prop := ∀ n, RunsFor n s

/-- `t` is reached from `s` in some number of steps. -/
def Reaches (s t : Machine.State) : Prop := ∃ n, core.run n s = .next t

/-- The parameters under which the spec refuses nothing (R284): the defaults of R8. -/
def NeverRefuses (c : Config) : Prop := c.decimal = .nmosExact ∧ c.busFidelity = .logical

/-- The bank configuration in force is not one the map declares invalid (R67); always true of the C64 map. -/
def Machine.State.bankValid (s : Machine.State) : Bool :=
  match s.cfg.busMap with
  | .c64 => true
  | .table _ invalid => !invalid.contains s.bankCfg

/-- The invariant of the machine: RAM is in canonical form and inside the 16-bit space (R6, R41), the bank configuration is valid
(R67), and right after an interrupt service I is set (R266). -/
structure Machine.State.Inv (s : Machine.State) : Prop where
  ramCanonical : s.ram.wf = true
  ramInSpace : s.ram.within 65536 = true
  bankIsValid : s.bankValid = true
  serviceMasks : s.lastWasService = true → s.p.i = true

end Sys2Proof
end

