-- ==== Sys2Proof/Certificates/Slice0/Obligations.lean ====
section
/-! DEFINITION. The statements for the provers, from the numbered rules of spec/. First the vocabulary they share (`Sys2Proof.Spec`):
the rules' arithmetic written over Nat and Int, apart from the model's own definitions. A free value (log 8) appears in a statement
only through the model's read of a byte, so each statement holds for every value of it. -/

namespace Sys2Proof.Spec

open Sys2Proof.Machine

/-- A byte as the low byte of a 16-bit address. -/
def addr (n : Nat) : Addr := BitVec.ofNat 16 n

/-- A number written into a byte, which truncates modulo 256 (R10, R186). -/
def byte (n : Nat) : Byte := BitVec.ofNat 8 n

/-- The number of a flag. -/
def num (b : Bool) : Nat := if b then 1 else 0

/-- "Zero set iff result byte == 0; Negative set iff bit 7 of result == 1" (R30). -/
def nz (p : Flags) (r : Byte) : Flags := { p with n := decide (128 ≤ r.toNat), z := decide (r.toNat = 0) }

/-- `(h << 8) | l` (R10). -/
def word (h l : Byte) : Addr := addr (256 * h.toNat + l.toNat)

/-- Page of an address (R12). -/
def page (a : Addr) : Nat := a.toNat / 256

/-- The operand of a read-class instruction (R113, R126): its value, the state after reading it, the page-crossing cycles (R125). -/
structure Operand where
  value : Byte
  st : State
  extra : Nat

/-- The operand of a form, `none` where the form has none or the model refuses the pointer read (R127, R284). -/
def operand (s : State) : Form → Option Operand
  | .imm b => some ⟨b, s, 0⟩
  | .mem m =>
    match s.pointerRefused m with
    | none => some ⟨s.operandByte m, s.afterOperand m, s.pageCost m⟩
    | some _ => none
  | .imp | .acc | .ind _ | .rel _ => none

/-- PC moved past the instruction and `cost` cycles counted (R110, R320). -/
def fallThrough (i : Instr) (cost : Nat) (s : State) : State :=
  { s with pc := addr (s.pc.toNat + i.form.mode.length), cycles := s.cycles + cost }

/-- The opcodes of a mnemonic, mode by mode, are exactly those listed. -/
def EncodedAs (m : Mnemonic) (l : List (AddrMode × Byte)) : Prop :=
  ∀ mode op, (mode, op) ∈ l ↔ ∃ i : Instr, i.mnemonic = m ∧ i.form.mode = mode ∧ i.opcode = op

/-- `Push(v)` (R56). -/
def push (v : Byte) (s : State) : State :=
  { s.memWrite (addr (256 + s.sp.toNat)) v with sp := byte (s.sp.toNat + 255) }

/-- `n` pushes of the byte `v`, one after the other. -/
def pushes : Nat → Byte → State → State
  | 0, _, s => s
  | n + 1, v, s => pushes n v (s.push v)

/-- The address `Pull()` reads (R57). -/
def pullAddr (s : State) : Addr := addr (256 + (s.sp.toNat + 1) % 256)

/-- The byte that `Pull()` answers and the state after (R57). -/
def pull (s : State) : Byte × State :=
  (s.peek (pullAddr s), { s.afterRead (pullAddr s) with sp := byte (s.sp.toNat + 1) })

/-- The packed status byte with break value `b` (R28). -/
def pack (p : Flags) (b : Bool) : Byte :=
  byte (128 * num p.n + 64 * num p.v + 32 + 16 * num b + 8 * num p.d + 4 * num p.i + 2 * num p.z + num p.c)

/-- The six flags loaded from a byte (R29). -/
def unpack (v : Byte) : Flags where
  n := v.toNat.testBit 7
  v := v.toNat.testBit 6
  d := v.toNat.testBit 3
  i := v.toNat.testBit 2
  z := v.toNat.testBit 1
  c := v.toNat.testBit 0

/-- The entry that NMI, IRQ and BRK share (R233, R266): three pushes, I set, PC from the vector through the bus. -/
def entry (ret : Addr) (b : Bool) (vector : Nat) (s : State) : State :=
  let s3 := push (pack s.p b) (push (byte ret.toNat) (push (byte (ret.toNat / 256)) s))
  let s4 := { s3 with p := { s.p with i := true } }
  let s5 := s4.afterRead (addr vector)
  { s5.afterRead (addr (vector + 1)) with pc := word (s5.peek (addr (vector + 1))) (s4.peek (addr vector)) }

/-- `BinaryAdd` (R171); V is the signed overflow of R32. -/
def binaryAdd (a m : Byte) (p : Flags) : Byte × Flags :=
  let sum := a.toNat + m.toNat + num p.c
  let signed := a.toInt + m.toInt + num p.c
  (byte sum, { nz p (byte sum) with c := decide (256 ≤ sum), v := decide (signed < -128 ∨ 127 < signed) })

/-- `BinarySub` (R174): C is "no borrow", V the signed overflow of R32. -/
def binarySub (a m : Byte) (p : Flags) : Byte × Flags :=
  let diff := a.toNat + (255 - m.toNat) + num p.c
  let signed := a.toInt - m.toInt - (1 - num p.c)
  (byte diff,
    { nz p (byte diff) with c := decide (m.toNat + (1 - num p.c) ≤ a.toNat), v := decide (signed < -128 ∨ 127 < signed) })

/-- `DecimalAdd` (R172), line by line. -/
def decimalAdd (a m : Byte) (p : Flags) : Byte × Flags :=
  let bin := (a.toNat + m.toNat + num p.c) % 256
  let al := (a.toNat &&& 0x0F) + (m.toNat &&& 0x0F) + num p.c
  let al := if al ≥ 0x0A then ((al + 0x06) &&& 0x0F) + 0x10 else al
  let t := (a.toNat &&& 0xF0) + (m.toNat &&& 0xF0) + al
  let n := t.testBit 7
  let v := !(a.toNat.testBit 7 ^^ m.toNat.testBit 7) && (a.toNat.testBit 7 ^^ t.testBit 7)
  let t := if t ≥ 0xA0 then t + 0x60 else t
  (byte t, { p with n := n, v := v, z := decide (bin = 0), c := decide (t ≥ 0x100) })

/-- `DecimalSub` (R175), line by line: the flags of the binary subtraction. -/
def decimalSub (a m : Byte) (p : Flags) : Byte × Flags :=
  let al : Int := ((a.toNat &&& 0x0F : Nat) : Int) - ((m.toNat &&& 0x0F : Nat) : Int) + (num p.c : Int) - 1
  let al := if al < 0 then (al - 0x06) % 0x10 - 0x10 else al
  let t : Int := ((a.toNat &&& 0xF0 : Nat) : Int) - ((m.toNat &&& 0xF0 : Nat) : Int) + al
  let t := if t < 0 then t - 0x60 else t
  (byte (t % 0x100).toNat, (binarySub a m p).2)

/-- Two decimal digits as a number. -/
def bcd (v : Byte) : Nat := 10 * (v.toNat / 16) + v.toNat % 16

/-- A byte whose nibbles are both 0 to 9 (R176). -/
def isBcd (v : Byte) : Prop := v.toNat % 16 ≤ 9 ∧ v.toNat / 16 ≤ 9

/-- The flags of a compare of `r` with `m` (R177 to R179). -/
def compare (r m : Byte) (p : Flags) : Flags :=
  { nz p (byte (r.toNat + 256 - m.toNat)) with c := decide (m.toNat ≤ r.toNat) }

/-- The new byte and flags of the shifts, rotates, INC and DEC (R180, R181, R204 to R207). -/
def modify : Mnemonic → Byte → Flags → Option (Byte × Flags)
  | .ASL, v, p => some (byte (2 * v.toNat), { nz p (byte (2 * v.toNat)) with c := decide (128 ≤ v.toNat) })
  | .LSR, v, p => some (byte (v.toNat / 2), { nz p (byte (v.toNat / 2)) with c := decide (v.toNat % 2 = 1) })
  | .ROL, v, p =>
    some (byte (2 * v.toNat + num p.c), { nz p (byte (2 * v.toNat + num p.c)) with c := decide (128 ≤ v.toNat) })
  | .ROR, v, p =>
    some (byte (v.toNat / 2 + 128 * num p.c),
      { nz p (byte (v.toNat / 2 + 128 * num p.c)) with c := decide (v.toNat % 2 = 1) })
  | .INC, v, p => some (byte (v.toNat + 1), nz p (byte (v.toNat + 1)))
  | .DEC, v, p => some (byte (v.toNat + 255), nz p (byte (v.toNat + 255)))
  | _, _, _ => none

/-- Whether a branch is taken (R221 to R228). -/
def taken : Mnemonic → Flags → Option Bool
  | .BCC, p => some (!p.c)
  | .BCS, p => some p.c
  | .BEQ, p => some p.z
  | .BNE, p => some (!p.z)
  | .BMI, p => some p.n
  | .BPL, p => some (!p.n)
  | .BVC, p => some (!p.v)
  | .BVS, p => some p.v
  | _, _ => none

/-- The register a write-class instruction stores (R143 to R145). -/
def storedRegister : Mnemonic → State → Option Byte
  | .STA, s => some s.a
  | .STX, s => some s.x
  | .STY, s => some s.y
  | _, _ => none

/-- The bus addresses an instruction writes, in order: its effective address for the write and read-modify-write classes (R126), the
stack bytes for pushes (R56, R160, R161, R230, R233). -/
def storedAt (i : Instr) (s : State) : List Addr :=
  match i.mnemonic, i.form with
  | .STA, .mem m | .STX, .mem m | .STY, .mem m | .ASL, .mem m | .LSR, .mem m | .ROL, .mem m | .ROR, .mem m
  | .INC, .mem m | .DEC, .mem m => [(s.resolve m).ea]
  | .PHA, _ | .PHP, _ => [stackAddr s.sp]
  | .JSR, _ => [stackAddr s.sp, stackAddr (s.sp - 1#8)]
  | .BRK, _ => [stackAddr s.sp, stackAddr (s.sp - 1#8), stackAddr (s.sp - 2#8)]
  | _, _ => []

/-- The instructions that write A (R21). -/
def writesA (i : Instr) : Prop :=
  i.mnemonic ∈ [.LDA, .TXA, .TYA, .PLA, .ADC, .SBC, .AND, .ORA, .EOR] ∨ i.form = .acc

/-- The instructions that write X (R22). -/
def writesX (i : Instr) : Prop := i.mnemonic ∈ [.LDX, .TAX, .TSX, .INX, .DEX]

/-- The instructions that write Y (R23). -/
def writesY (i : Instr) : Prop := i.mnemonic ∈ [.LDY, .TAY, .INY, .DEY]

/-- The instructions that write S: TXS, pushes and pulls (R25). -/
def writesS (i : Instr) : Prop := i.mnemonic ∈ [.TXS, .PHA, .PHP, .PLA, .PLP, .JSR, .RTS, .RTI, .BRK]

/-- The rows of R35 that write N and Z. -/
def writesNZ (i : Instr) : Prop :=
  i.mnemonic ∈ [.ADC, .SBC, .AND, .ORA, .EOR, .LDA, .LDX, .LDY, .TAX, .TAY, .TXA, .TYA, .TSX, .PLA, .INC, .DEC, .INX, .INY,
    .DEX, .DEY, .CMP, .CPX, .CPY, .ASL, .LSR, .ROL, .ROR, .BIT, .PLP, .RTI]

/-- The rows of R35 that write V. -/
def writesV (i : Instr) : Prop := i.mnemonic ∈ [.ADC, .SBC, .BIT, .PLP, .RTI, .CLV]

/-- The rows of R35 that write C. -/
def writesC (i : Instr) : Prop :=
  i.mnemonic ∈ [.ADC, .SBC, .CMP, .CPX, .CPY, .ASL, .LSR, .ROL, .ROR, .PLP, .RTI, .CLC, .SEC]

/-- The rows of R35 that write I. -/
def writesI (i : Instr) : Prop := i.mnemonic ∈ [.PLP, .RTI, .BRK, .CLI, .SEI]

/-- The rows of R35 that write D. -/
def writesD (i : Instr) : Prop := i.mnemonic ∈ [.PLP, .RTI, .CLD, .SED]

/-- The read class (R126). -/
def readClass : List Mnemonic := [.LDA, .LDX, .LDY, .ADC, .SBC, .AND, .ORA, .EOR, .CMP, .CPX, .CPY, .BIT]

/-- The write class (R126). -/
def writeClass : List Mnemonic := [.STA, .STX, .STY]

/-- The read-modify-write class (R126). -/
def rmwClass : List Mnemonic := [.ASL, .LSR, .ROL, .ROR, .INC, .DEC]

/-- The base cost of an instruction by its class and mode (R98, R321). -/
def baseCost (i : Instr) : Nat :=
  match i.form.mode with
  | .IMM | .ACC | .REL => 2
  | .IMP =>
    match i.mnemonic with
    | .PHA | .PHP => 3
    | .PLA | .PLP => 4
    | .RTS | .RTI => 6
    | .BRK => 7
    | _ => 2
  | .ZP => if i.mnemonic ∈ rmwClass then 5 else 3
  | .ZPX | .ZPY => if i.mnemonic ∈ rmwClass then 6 else 4
  | .ABS =>
    match i.mnemonic with
    | .JMP => 3
    | .JSR => 6
    | m => if m ∈ rmwClass then 6 else 4
  | .ABSX => if i.mnemonic ∈ rmwClass then 7 else if i.mnemonic ∈ writeClass then 5 else 4
  | .ABSY => if i.mnemonic ∈ writeClass then 5 else 4
  | .IND => 5
  | .INDX => 6
  | .INDY => if i.mnemonic ∈ writeClass then 6 else 5

/-- The opcodes that pay for a page crossing: the read class in ABSX, ABSY and INDY (R125). -/
def paysForCrossing (i : Instr) : Prop := i.mnemonic ∈ readClass ∧ i.form.mode ∈ [.ABSX, .ABSY, .INDY]

/-- The page-crossing cycles (R125). -/
def pageCycles (i : Instr) (s : State) : Nat :=
  match i.form with
  | .mem m =>
    if i.mnemonic ∈ readClass ∧ m.mode ∈ [.ABSX, .ABSY, .INDY] ∧ page (s.resolve m).base ≠ page (s.resolve m).ea then 1 else 0
  | _ => 0

/-- The target of a branch at `s.pc` (R123). -/
def target (s : State) (rel : Byte) : Addr := BitVec.ofInt 16 ((s.pc.toNat : Int) + 2 + rel.toInt)

/-- The branch cycles of R220, R320. -/
def branchCycles (i : Instr) (s : State) : Nat :=
  match taken i.mnemonic s.p, i.form with
  | some true, .rel rel => if page (addr (s.pc.toNat + 2)) ≠ page (target s rel) then 2 else 1
  | _, _ => 0

/-- The program-counter addresses that `i` reads without using the byte, `s` being the state after its fetch: the dummy reads of R127
that are not modelled, those of the NMOS 6502 (log 22, PRESUMED). The byte after a one-byte instruction, and for RTS the address pulled;
for a taken branch the byte after it, and to another page the target in the old page. -/
def pcReads (i : Instr) (s : State) : List Addr :=
  match i.form with
  | .imp =>
    if i.mnemonic = .RTS then [addr (s.pc.toNat + 1), word (pull (pull s).2).1 (pull s).1] else [addr (s.pc.toNat + 1)]
  | .acc => [addr (s.pc.toNat + 1)]
  | .rel rel =>
    let next := addr (s.pc.toNat + 2)
    if taken i.mnemonic s.p = some true then
      if page next ≠ page (target s rel) then [next, addr (256 * page next + (target s rel).toNat % 256)] else [next]
    else []
  | .imm _ | .mem _ | .ind _ => []

/-- The state with the flag D set to `b`. -/
def withD (b : Bool) (s : State) : State := { s with p := { s.p with d := b } }

/-- An answer with the flag D of its next state set to `b`. -/
def resultWithD (b : Bool) (r : Result) : Result :=
  match r with
  | .next t => .next (withD b t)
  | .fault f => .fault f
  | .refused x => .refused x

/-- The state after fetching `n` bytes from PC on: each is one bus read, in address order (R110). -/
def fetched : Nat → Addr → State → State
  | 0, _, s => s
  | n + 1, a, s => fetched n (addr (a.toNat + 1)) (s.afterRead a)

/-- The bookkeeping of a step around an instruction that began with P.I = `i0` (R260): `iAtLastBoundary <- i0`,
`lastWasService <- 0`; `lastWasMaskOp` is the model's own (log 10). -/
def committed (i : Instr) (i0 : Bool) (r : Result) : Result :=
  match r with
  | .next t =>
    .next { t with
      iAtLastBoundary := i0, lastWasService := false,
      lastWasMaskOp := decide (i.mnemonic = .CLI ∨ i.mnemonic = .SEI ∨ i.mnemonic = .PLP) }
  | .fault f => .fault f
  | .refused x => .refused x

end Sys2Proof.Spec

open Sys2Proof Sys2Proof.Machine

/-! ### Reset and configuration -/

/-- R46, R300: what power-on leaves, for every configuration and every draw. -/
def Obligations.PowerOnLeavesTheResetValues : Prop :=
  ∀ (cfg : Config) (d : ResetDraws) (data : Byte) (ram : Memory),
    let t := State.powerOn cfg d data ram
    t.sp = 0xFD#8 ∧ t.p = { n := d.n, v := d.v, d := d.d, i := true, z := d.z, c := d.c } ∧
    t.a = d.a ∧ t.x = d.x ∧ t.y = d.y ∧
    t.nmiPending = false ∧ t.irqPending = false ∧ t.cycles = 0 ∧ t.ram = ram ∧ t.portDDR = 0x00#8 ∧ t.portDATA = data ∧
    t.halted = none ∧ t.lastWasService = false ∧ t.iAtLastBoundary = true ∧ t.cfg = cfg ∧ t.bankCfg = 0b111#3 ∧
    (cfg.busMap = .c64 → t.pc = Spec.word (cfg.romKernal.read 0x1FFD) (cfg.romKernal.read 0x1FFC)) ∧
    (∀ s, s = ({ State.reset with cfg := cfg, portDATA := data, ram := ram }).resetFields d →
      t.pc = Spec.word ((s.afterRead 0xFFFC#16).peek 0xFFFD#16) (s.peek 0xFFFC#16))

/-- R301: a reset of a running or a halted machine keeps RAM and PortDATA and otherwise applies R300. -/
def Obligations.WarmResetKeepsRamAndPortData : Prop :=
  ∀ (s : State) (d : ResetDraws),
    let t := s.boundary (.reset d)
    t.ram = s.ram ∧ t.portDATA = s.portDATA ∧ t.cfg = s.cfg ∧ t.halted = none ∧
    t.sp = 0xFD#8 ∧ t.p = { n := d.n, v := d.v, d := d.d, i := true, z := d.z, c := d.c } ∧
    t.a = d.a ∧ t.x = d.x ∧ t.y = d.y ∧ t.nmiPending = false ∧ t.irqPending = false ∧ t.cycles = 0 ∧
    t.portDDR = 0x00#8 ∧ t.lastWasService = false ∧ t.iAtLastBoundary = true ∧ (s.resetFields d).bankCfg = 0b111#3 ∧
    t.pc = Spec.word (((s.resetFields d).afterRead 0xFFFC#16).peek 0xFFFD#16) ((s.resetFields d).peek 0xFFFC#16)

/-- The model's choice (logs 1 to 4, 6, 7): `State.reset` is the power-on state whose draws are all zero. -/
def Obligations.ResetIsPowerOnWithZeroDraws : Prop :=
  State.reset = State.powerOn Config.default
    { a := 0x00#8, x := 0x00#8, y := 0x00#8, n := false, v := false, d := false, z := false, c := false } 0x00#8 []

/-- The invariant holds at reset. -/
def Obligations.ResetMeetsTheInvariant : Prop := State.reset.Inv

/-- R9: a configuration is accepted exactly when the clock is one of the two and the three images are present and of exactly their
sizes; the machine then has those images; otherwise no machine is built. That the clock is written "PAL" or "NTSC" is the model's
choice (log 23). -/
def Obligations.ConfigurationIsCheckedOnceBeforeReset : Prop :=
  ∀ (raw : RawConfig) (d : ResetDraws) (data : Byte) (ram : Memory),
    ((∃ s, boot raw d data ram = .ok s) ↔
      (raw.clock = "PAL" ∨ raw.clock = "NTSC") ∧
      ∃ b k g, raw.basic = some b ∧ raw.kernal = some k ∧ raw.char = some g ∧
        b.length = 8192 ∧ k.length = 8192 ∧ g.length = 4096) ∧
    (∀ s b k g, boot raw d data ram = .ok s → raw.basic = some b → raw.kernal = some k → raw.char = some g →
      (∀ j (h : j < b.length), s.cfg.romBasic.read j = b[j]) ∧
      (∀ j (h : j < k.length), s.cfg.romKernal.read j = k[j]) ∧
      (∀ j (h : j < g.length), s.cfg.romChar.read j = g[j]) ∧ s.cfg.wf = true)

/-! ### Encoding -/

/-- Decoding the bytes of any instruction, with every operand and whatever follows, gives it back. -/
def Obligations.DecodeOfEncodeIsTheInstruction : Prop :=
  ∀ (i : Instr) (rest : List Byte), decode (encode i ++ rest) = .ok (i, rest)

/-- Each byte sequence has one meaning: what decodes to an instruction is its encoding. -/
def Obligations.EncodeOfDecodeIsTheBytes : Prop :=
  ∀ (bs rest : List Byte) (i : Instr), decode bs = .ok (i, rest) → bs = encode i ++ rest

/-- R94: exactly these 105 bytes are illegal. -/
def Obligations.ExactlyTheseOpcodesAreIllegal : Prop :=
  ∀ (op : Byte) (rest : List Byte), decode (op :: rest) = .error (.illegalOpcode op) ↔ op.toNat ∈
    [0x02, 0x03, 0x04, 0x07, 0x0B, 0x0C, 0x0F, 0x12, 0x13, 0x14, 0x17, 0x1A, 0x1B, 0x1C, 0x1F, 0x22, 0x23, 0x27, 0x2B, 0x2F, 0x32,
      0x33, 0x34, 0x37, 0x3A, 0x3B, 0x3C, 0x3F, 0x42, 0x43, 0x44, 0x47, 0x4B, 0x4F, 0x52, 0x53, 0x54, 0x57, 0x5A, 0x5B, 0x5C, 0x5F] ++
    [0x62, 0x63, 0x64, 0x67, 0x6B, 0x6F, 0x72, 0x73, 0x74, 0x77, 0x7A, 0x7B, 0x7C, 0x7F, 0x80, 0x82, 0x83, 0x87, 0x89, 0x8B, 0x8F,
      0x92, 0x93, 0x97, 0x9B, 0x9C, 0x9E, 0x9F, 0xA3, 0xA7, 0xAB, 0xAF, 0xB2, 0xB3, 0xB7, 0xBB, 0xBF] ++
    [0xC2, 0xC3, 0xC7, 0xCB, 0xCF, 0xD2, 0xD3, 0xD4, 0xD7, 0xDA, 0xDB, 0xDC, 0xDF, 0xE2, 0xE3, 0xE7, 0xEB, 0xEF, 0xF2, 0xF3, 0xF4,
      0xF7, 0xFA, 0xFB, 0xFC, 0xFF]

/-- R91: the length is a function of the mode alone, and is known from the opcode byte. -/
def Obligations.LengthIsByModeAlone : Prop :=
  (∀ i : Instr, (encode i).length = i.form.mode.length ∧ opcodeLength i.opcode = some i.form.mode.length) ∧
  AddrMode.length .IMP = 1 ∧ AddrMode.length .ACC = 1 ∧ AddrMode.length .IMM = 2 ∧ AddrMode.length .ZP = 2 ∧
  AddrMode.length .ZPX = 2 ∧ AddrMode.length .ZPY = 2 ∧ AddrMode.length .ABS = 3 ∧ AddrMode.length .ABSX = 3 ∧
  AddrMode.length .ABSY = 3 ∧ AddrMode.length .IND = 3 ∧ AddrMode.length .INDX = 2 ∧ AddrMode.length .INDY = 2 ∧
  AddrMode.length .REL = 2

/-- Words written out from R98 decode to their instructions, one for each family. -/
def Obligations.WordsOfTheTableDecode : Prop :=
  decode [0xA9#8, 0x10#8] = .ok (.ldaImm 0x10#8, []) ∧
  decode [0x9D#8, 0xF0#8, 0x12#8] = .ok (.staAbsx 0x12F0#16, []) ∧
  decode [0x48#8] = .ok (.pha, []) ∧
  decode [0x71#8, 0x80#8] = .ok (.adcIndy 0x80#8, []) ∧
  decode [0x2C#8, 0x00#8, 0x04#8] = .ok (.bitAbs 0x0400#16, []) ∧
  decode [0x6C#8, 0xFF#8, 0x10#8] = .ok (.jmpInd 0x10FF#16, []) ∧
  decode [0xD0#8, 0xFE#8] = .ok (.bne 0xFE#8, []) ∧
  decode [0x78#8] = .ok (.sei, []) ∧
  decode [0x02#8] = .error (.illegalOpcode 0x02#8)

/-! ### The step -/

/-- When the bytes at PC decode to `i`, the step is `exec i` on the state after its bytes were fetched (PC still at the opcode; the
meaning moves it), with the bookkeeping of R260. No read at the program counter, of its bytes or a dummy one (log 22), may be refused:
what is refused is said in `NmosDummyRefusesTheIoWindow`; nothing is under `LOGICAL`. -/
def Obligations.StepRunsTheDecodedInstruction : Prop :=
  ∀ (s : State) (i : Instr) (rest : List Byte),
    s.halted = none → s.poll = none →
    (∀ k, k < i.form.mode.length → s.fetchRefused (Spec.addr (s.pc.toNat + k)) = false) →
    decode [s.peek s.pc, (Spec.fetched 1 s.pc s).peek (Spec.addr (s.pc.toNat + 1)),
      (Spec.fetched 2 s.pc s).peek (Spec.addr (s.pc.toNat + 2))] = .ok (i, rest) →
    (∀ a, a ∈ Spec.pcReads i (Spec.fetched i.form.mode.length s.pc s) → s.fetchRefused a = false) →
    step s = Spec.committed i s.p.i (exec i (Spec.fetched i.form.mode.length s.pc s))

/-- R280: an illegal byte at PC faults with its address and itself; of the step only the opcode read is left (for the device and the
free values; nothing where that byte is RAM), and `halted` holds the record. -/
def Obligations.IllegalOpcodeFaultsAndCommitsNothing : Prop :=
  ∀ s : State, s.halted = none → s.poll = none → s.fetchRefused s.pc = false → shapeOf (s.peek s.pc) = none →
    step s = .fault (.illegalOpcode s.pc (s.peek s.pc)) ∧
    s.advance = { s.afterRead s.pc with halted := some (.illegalOpcode s.pc (s.peek s.pc)) } ∧
    (∃ n l, s.afterRead s.pc = { s with draws := n, ioLog := l }) ∧
    (s.select s.pc .read = .ram → s.afterRead s.pc = s)

/-- A halted machine takes no step, whatever latches the collaborators set (R285). That `step` answers the fault record again is the
model's choice (log 11, DEDUCED): R285 says only that no step is taken. -/
def Obligations.HaltedMachineTakesNoStep : Prop :=
  ∀ (s : State) (f : Fault), s.halted = some f →
    step s = .fault f ∧ s.advance = s ∧
    step (s.boundary .raiseNmi) = .fault f ∧ step (s.boundary .raiseIrq) = .fault f

/-- R263, R264: what a step of a running machine does: no poll right after a service, and the latches stay pending; else NMI first,
whatever I is, with IRQ left pending and masked; else IRQ if it is not masked; else the next instruction. (A service whose read at PC
R127 refuses is in `NmosDummyRefusesTheIoWindow`; none is under `LOGICAL`.) -/
def Obligations.StepPollsThenServicesOrExecutes : Prop :=
  ∀ s : State, s.halted = none →
    (s.lastWasService = true →
      step s = s.runInstruction ∧
      ∀ t, step s = .next t → t.nmiPending = s.nmiPending ∧ t.irqPending = s.irqPending) ∧
    (s.lastWasService = false → s.nmiPending = true → s.fetchRefused s.pc = false →
      step s = .next (s.service .nmi) ∧ (s.service .nmi).irqPending = s.irqPending ∧ (s.service .nmi).p.i = true) ∧
    (s.lastWasService = false → s.nmiPending = false → s.irqPending = true → s.effectiveI = false → s.fetchRefused s.pc = false →
      step s = .next (s.service .irq)) ∧
    (s.nmiPending = false → (s.irqPending = false ∨ s.effectiveI = true) → step s = s.runInstruction)

/-- R265: the mask the poll reads: P.I itself under latency 0, and after an instruction as the latency says. -/
def Obligations.IrqMaskAfterAnInstruction : Prop :=
  (∀ s : State, s.cfg.irqLatency = .zero → s.effectiveI = s.p.i) ∧
  (∀ (s t u : State) (i : Instr), s.halted = none → s.poll = none → s.fetch = .next (i, u) → step s = .next t →
    t.effectiveI =
      if s.cfg.irqLatency = .one ∧ (i.mnemonic = .CLI ∨ i.mnemonic = .SEI ∨ i.mnemonic = .PLP) then s.p.i else t.p.i)

/-- R266: the service sequence, field by field; everything it does not name is unchanged. -/
def Obligations.ServiceSequence : Prop :=
  ∀ s : State,
    s.service .nmi =
      { Spec.entry s.pc false 0xFFFA s with nmiPending := false, cycles := s.cycles + 7, lastWasService := true } ∧
    s.service .irq =
      { Spec.entry s.pc false 0xFFFE s with irqPending := false, cycles := s.cycles + 7, lastWasService := true }

/-- R268: a service saves exactly three bytes on the stack, PC high, PC low and P with B = 0, and S falls by 3 modulo 256. The stack
page is RAM for writes, as it is under the C64 map. -/
def Obligations.ServiceSavesExactlyThreeBytes : Prop :=
  ∀ (s : State) (k : Interrupt), s.ram.wf = true → (∀ v, s.select (stackAddr v) .write = .ram) →
    (s.service k).ram.read (256 + s.sp.toNat) = Spec.byte (s.pc.toNat / 256) ∧
    (s.service k).ram.read (256 + (s.sp.toNat + 255) % 256) = Spec.byte s.pc.toNat ∧
    (s.service k).ram.read (256 + (s.sp.toNat + 254) % 256) = Spec.pack s.p false ∧
    (∀ b, b ≠ 256 + s.sp.toNat → b ≠ 256 + (s.sp.toNat + 255) % 256 → b ≠ 256 + (s.sp.toNat + 254) % 256 →
      (s.service k).ram.read b = s.ram.read b) ∧
    (s.service k).sp = Spec.byte (s.sp.toNat + 253) ∧
    (s.service k).a = s.a ∧ (s.service k).x = s.x ∧ (s.service k).y = s.y ∧ (s.service k).p = { s.p with i := true }

/-- R267: RTI resumes exactly what a service interrupted. The stack page is RAM, as it is under the C64 map. -/
def Obligations.RtiResumesExactlyWhatWasInterrupted : Prop :=
  ∀ (s : State) (k : Interrupt), s.ram.wf = true →
    (∀ v, s.select (stackAddr v) .write = .ram ∧ s.select (stackAddr v) .read = .ram) →
    ∃ t, exec .rti (s.service k) = .next t ∧
      t.pc = s.pc ∧ t.p = s.p ∧ t.sp = s.sp ∧ t.a = s.a ∧ t.x = s.x ∧ t.y = s.y ∧ t.cycles = s.cycles + 13

/-- R230, R231: RTS after JSR goes on after the JSR. The stack page is RAM, as it is under the C64 map. -/
def Obligations.RtsReturnsAfterTheJsr : Prop :=
  ∀ (s : State) (w : Addr), s.ram.wf = true →
    (∀ v, s.select (stackAddr v) .write = .ram ∧ s.select (stackAddr v) .read = .ram) →
    ∃ t u, exec (.jsr w) s = .next t ∧ t.pc = w ∧ exec .rts t = .next u ∧
      u.pc = Spec.addr (s.pc.toNat + 3) ∧ u.sp = s.sp ∧ u.p = s.p ∧ u.a = s.a ∧ u.x = s.x ∧ u.y = s.y

/-! ### Bus -/

/-- R61: the C64 map, range by range. -/
def Obligations.C64MapSelects : Prop :=
  ∀ (s : State) (a : Addr), s.cfg.busMap = .c64 →
    let loram := decide (s.bankCfg.toNat % 2 = 1)
    let hiram := decide (s.bankCfg.toNat / 2 % 2 = 1)
    let charen := decide (s.bankCfg.toNat / 4 = 1)
    (a.toNat ≤ 0x0001 → s.select a .read = .port ∧ s.select a .write = .port) ∧
    (0x0002 ≤ a.toNat → a.toNat ≤ 0x9FFF → s.select a .read = .ram ∧ s.select a .write = .ram) ∧
    (0xA000 ≤ a.toNat → a.toNat ≤ 0xBFFF →
      s.select a .read = (if loram = true ∧ hiram = true then .basic else .ram) ∧ s.select a .write = .ram) ∧
    (0xC000 ≤ a.toNat → a.toNat ≤ 0xCFFF → s.select a .read = .ram ∧ s.select a .write = .ram) ∧
    (0xD000 ≤ a.toNat → a.toNat ≤ 0xDFFF →
      s.select a .read = (if loram = false ∧ hiram = false then .ram else if charen = true then .io else .char) ∧
      s.select a .write = (if loram = false ∧ hiram = false then .ram else if charen = true then .io else .ram)) ∧
    (0xE000 ≤ a.toNat → s.select a .read = (if hiram = true then .kernal else .ram) ∧ s.select a .write = .ram)

/-- A write to an address whose read selects a ROM writes the RAM byte beneath; the ROM is unchanged, and a later read with the ROM
unmapped returns the written byte (R63). That this holds under every map, and not only under the default one, is the model's choice
(log 15, DEDUCED). -/
def Obligations.WriteUnderRomReachesTheRamBeneath : Prop :=
  ∀ (s : State) (a : Addr) (v : Byte), s.ram.wf = true →
    (s.select a .read = .basic ∨ s.select a .read = .kernal ∨ s.select a .read = .char) →
    (s.memWrite a v).peek a = s.peek a ∧ (s.memWrite a v).cfg = s.cfg ∧
    (s.memWrite a v).ram.read a.toNat = v ∧
    (∀ t : State, t.ram = (s.memWrite a v).ram → t.select a .read = .ram → t.peek a = v) ∧
    (∀ b : Addr, b ≠ a → (s.memWrite a v).ram.read b.toNat = s.ram.read b.toNat)

/-- R70, R71, R40: the port. -/
def Obligations.PortReadsWritesAndBankConfiguration : Prop :=
  ∀ (s : State) (v : Byte),
    s.peek 0x0000#16 = s.portDDR ∧ s.afterRead 0x0000#16 = s ∧ (∃ n, s.afterRead 0x0001#16 = { s with draws := n }) ∧
    (∃ pins : Byte, pins.toNat % 8 = 7 ∧
      s.peek 0x0001#16 = (s.portDATA &&& s.portDDR) ||| (pins &&& ~~~s.portDDR)) ∧
    (s.memWrite 0x0000#16 v = { s with portDDR := v }) ∧
    (s.memWrite 0x0001#16 v = { s with portDATA := v }) ∧
    s.bankCfg.toNat = (s.portDATA ||| ~~~s.portDDR).toNat % 8

/-- R72: under every map 0x0000 and 0x0001 select the port, and no step changes the RAM bytes there. No step changes the configuration
either (R20 "they never change after reset"). -/
def Obligations.NoStepChangesTheConfigurationOrTheRamUnderThePort : Prop :=
  (∀ (s : State) (dir : Dir), s.select 0x0000#16 dir = .port ∧ s.select 0x0001#16 dir = .port) ∧
  (∀ s t : State, step s = .next t → t.cfg = s.cfg ∧ t.ram.read 0 = s.ram.read 0 ∧ t.ram.read 1 = s.ram.read 1)

/-- R75: a read returns the value of the most recent write to the same RAM location, and a write is seen nowhere else. -/
def Obligations.ReadReturnsTheMostRecentWrite : Prop :=
  ∀ (s : State) (a b : Addr) (v : Byte), s.ram.wf = true → s.select a .write = .ram → s.select a .read = .ram →
    (s.memWrite a v).peek a = v ∧
    (b ≠ a → s.select b .read = .ram ∨ s.select b .read = .basic ∨ s.select b .read = .kernal ∨ s.select b .read = .char →
      (s.memWrite a v).peek b = s.peek b)

/-- R25, R56: n pushes lower S by n modulo 256, so 256 of them return S to its start; none touches RAM outside page 1. -/
def Obligations.PushesWrapWithinPageOne : Prop :=
  ∀ (n : Nat) (v : Byte) (s : State),
    (Spec.pushes n v s).sp = Spec.byte (s.sp.toNat + 255 * n) ∧
    (Spec.pushes 256 v s).sp = s.sp ∧
    (∀ b, b < 256 ∨ 512 ≤ b → (Spec.pushes n v s).ram.read b = s.ram.read b)

/-- An instruction whose store to the port gives a configuration the map declares invalid faults, and nothing commits; an instruction
faults in no other way, and never under the default map (R281). Two clauses rest on the model's choices: that the device's record and
the free values are also as before (third clause; log 12, DEDUCED), and that the old value a read-modify-write writes back under
`NMOS_DUMMY` is checked too (`rmwInvalid`, second clause; log 21, DEDUCED). -/
def Obligations.InvalidBankConfigurationFaults : Prop :=
  (∀ (i : Instr) (m : MemForm) (s : State) (v : Byte), i.form = .mem m → Spec.storedRegister i.mnemonic s = some v →
    s.pointerRefused m = none → (s.writeDummy m (s.resolve m)).bankWriteInvalid (s.resolve m).ea v = true →
    exec i s = .fault (.invalidBankConfig s.pc i.opcode)) ∧
  (∀ (i : Instr) (m : MemForm) (s : State) (r : Byte × Flags), i.form = .mem m →
    Spec.modify i.mnemonic (s.rmwByte m) s.p = some r →
    (s.afterRmwRead m).rmwInvalid (s.resolve m).ea (s.rmwByte m) r.1 = true →
    exec i s = .fault (.invalidBankConfig s.pc i.opcode)) ∧
  (∀ (s : State) (a : Addr) (op : Byte), s.halted = none → step s = .fault (.invalidBankConfig a op) →
    s.advance = { s with halted := some (.invalidBankConfig a op) }) ∧
  (∀ (i : Instr) (s : State) (f : Fault), exec i s = .fault f →
    f = .invalidBankConfig s.pc i.opcode ∧ s.cfg.busMap ≠ .c64 ∧
      ∃ m, i.form = .mem m ∧ ((s.resolve m).ea = 0x0000#16 ∨ (s.resolve m).ea = 0x0001#16))

/-! ### Addressing modes -/

/-- R53, R54, R55: the three 16-bit reads. R114 to R119, R121, R122: the effective address of every mode, and its page-crossing flag
(R124); the two modes that read a pointer read it with `Read16zp`. -/
def Obligations.EffectiveAddressOfEveryMode : Prop :=
  ∀ (s : State) (b : Byte) (w : Addr),
    (let a := Spec.addr (w.toNat + 1)
     s.read16 w = (Spec.word ((s.afterRead w).peek a) (s.peek w), (s.afterRead w).afterRead a)) ∧
    (let z := Spec.addr b.toNat
     let a := Spec.addr ((b.toNat + 1) % 256)
     s.read16zp b = (Spec.word ((s.afterRead z).peek a) (s.peek z), (s.afterRead z).afterRead a)) ∧
    (let a := Spec.addr (w.toNat / 256 * 256 + (w.toNat + 1) % 256)
     s.read16pw w = (Spec.word ((s.afterRead w).peek a) (s.peek w), (s.afterRead w).afterRead a)) ∧
    (s.resolve (.zp b)).ea = Spec.addr b.toNat ∧
    (s.resolve (.zpx b)).ea = Spec.addr ((b.toNat + s.x.toNat) % 256) ∧
    (s.resolve (.zpy b)).ea = Spec.addr ((b.toNat + s.y.toNat) % 256) ∧
    (s.resolve (.abs w)).ea = w ∧
    (s.resolve (.absx w)).ea = Spec.addr (w.toNat + s.x.toNat) ∧ (s.resolve (.absx w)).base = w ∧
    (s.resolve (.absy w)).ea = Spec.addr (w.toNat + s.y.toNat) ∧ (s.resolve (.absy w)).base = w ∧
    (s.resolve (.indx b)).ea = (s.read16zp (Spec.byte (b.toNat + s.x.toNat))).1 ∧
    (s.resolve (.indx b)).st = (s.read16zp (Spec.byte (b.toNat + s.x.toNat))).2 ∧
    (s.resolve (.indy b)).ea = Spec.addr ((s.read16zp b).1.toNat + s.y.toNat) ∧
    (s.resolve (.indy b)).base = (s.read16zp b).1 ∧ (s.resolve (.indy b)).st = (s.read16zp b).2 ∧
    (∀ m, (s.resolve m).cross = decide (Spec.page (s.resolve m).base ≠ Spec.page (s.resolve m).ea)) ∧
    (∀ m, m = .zp b ∨ m = .zpx b ∨ m = .zpy b ∨ m = .abs w ∨ m = .indx b → (s.resolve m).cross = false) ∧
    (∀ m, m = .zp b ∨ m = .zpx b ∨ m = .zpy b ∨ m = .abs w ∨ m = .absx w ∨ m = .absy w → (s.resolve m).st = s)

/-- R76, R126, R127: the data accesses of each class. Under `LOGICAL` a read-class instruction makes one read of its effective address,
a write-class instruction no read, a read-modify-write instruction one read and one write; under `NMOS_DUMMY` the dummy accesses of
R127 (a), (b), (c) come before them. -/
def Obligations.DataAccessesOfEachBusFidelity : Prop :=
  ∀ (s : State) (m : MemForm) (v v' : Byte),
    let r := s.resolve m
    let dummy := Spec.addr (256 * Spec.page r.base + r.ea.toNat % 256)
    let indexed := m.mode = .ABSX ∨ m.mode = .ABSY ∨ m.mode = .INDY
    (s.cfg.busFidelity = .logical →
      s.operandByte m = r.st.peek r.ea ∧ s.afterOperand m = r.st.afterRead r.ea ∧
      s.writeDummy m r = r.st ∧
      s.rmwByte m = r.st.peek r.ea ∧ s.afterRmwRead m = r.st.afterRead r.ea ∧
      s.rmwWrite r.ea v v' = s.memWrite r.ea v') ∧
    (s.cfg.busFidelity = .nmosDummy →
      (r.cross = true → s.operandByte m = (r.st.afterRead dummy).peek r.ea ∧
        s.afterOperand m = (r.st.afterRead dummy).afterRead r.ea) ∧
      (r.cross = false → s.operandByte m = r.st.peek r.ea ∧ s.afterOperand m = r.st.afterRead r.ea) ∧
      (indexed → s.writeDummy m r = r.st.afterRead dummy ∧ s.rmwByte m = (r.st.afterRead dummy).peek r.ea ∧
        s.afterRmwRead m = (r.st.afterRead dummy).afterRead r.ea) ∧
      (¬ indexed → s.writeDummy m r = r.st ∧ s.rmwByte m = r.st.peek r.ea ∧ s.afterRmwRead m = r.st.afterRead r.ea) ∧
      s.rmwWrite r.ea v v' = (s.memWrite r.ea v).memWrite r.ea v')

/-- R127, R284: under `NMOS_DUMMY` the fetch of an instruction byte in the I/O window is refused, the opcode's and each operand byte's
alike; so is a (zp,X) or (zp),Y pointer read there, by every instruction that makes one; and so is a step that reads the
program-counter address there without using the byte: a service with PC there, and an instruction one of whose dummy reads of PC lies
there. These refusals occur nowhere else, and none under `LOGICAL`. Two points are the model's choices (log 22): that one of the two
pointer bytes in the window is enough (DEDUCED), and which instructions make a dummy read of the program-counter address
(`Spec.pcReads`, PRESUMED). -/
def Obligations.NmosDummyRefusesTheIoWindow : Prop :=
  (∀ s : State, s.halted = none → s.poll = none → s.cfg.busFidelity = .nmosDummy → s.select s.pc .read = .io →
    step s = .refused (.ioFetchUnderDummy s.pc)) ∧
  (∀ (s : State) (a : Addr), s.fetchRefused a = true ↔ s.cfg.busFidelity = .nmosDummy ∧ s.select a .read = .io) ∧
  (∀ (i : Instr) (m : MemForm) (s : State) (z : Byte), i.form = .mem m →
    (m = .indx (z - s.x) ∨ m = .indy z) → s.cfg.busFidelity = .nmosDummy →
    (s.select (Spec.addr z.toNat) .read = .io ∨ s.select (Spec.addr ((z.toNat + 1) % 256)) .read = .io) →
    exec i s = .refused (.ioPointerUnderDummy z)) ∧
  (∀ (s : State) (m : MemForm), s.cfg.busFidelity = .logical → s.pointerRefused m = none) ∧
  (∀ (s : State) (m : MemForm) (z : Byte), s.pointerRefused m = some z ↔
    s.cfg.busFidelity = .nmosDummy ∧
      ((∃ b, m = .indx b ∧ z = Spec.byte (b.toNat + s.x.toNat)) ∨ m = .indy z) ∧
      (s.select (Spec.addr z.toNat) .read = .io ∨ s.select (Spec.addr ((z.toNat + 1) % 256)) .read = .io)) ∧
  (∀ (i : Instr) (s : State) (z : Byte), exec i s = .refused (.ioPointerUnderDummy z) ↔
    ∃ m, i.form = .mem m ∧ s.pointerRefused m = some z) ∧
  (∀ (s : State) (a : Addr), s.halted = none → s.poll = none →
    (step s = .refused (.ioFetchUnderDummy a) ↔
      ∃ k, a = Spec.addr (s.pc.toNat + k) ∧ (k = 0 ∨ ∃ n, opcodeLength (s.peek s.pc) = some n ∧ k < n) ∧
        (∀ j, j < k → s.fetchRefused (Spec.addr (s.pc.toNat + j)) = false) ∧ s.fetchRefused a = true)) ∧
  (∀ (s : State) (k : Interrupt), s.halted = none → s.poll = some k →
    step s = if s.fetchRefused s.pc = true then .refused (.ioPcUnderDummy s.pc) else .next (s.service k)) ∧
  (∀ (s u : State) (i : Instr) (a : Addr), s.halted = none → s.poll = none → s.fetch = .next (i, u) →
    (step s = .refused (.ioPcUnderDummy a) ↔ (Spec.pcReads i u).find? (fun b => s.fetchRefused b) = some a))

/-! ### Instructions: results and completion -/

/-- Every instruction completes: under the default map and the default fidelities (R8) each of the 151 answers a next state, on
every state and operand (R186, R271, R283: no instruction traps on a value). -/
def Obligations.EveryInstructionCompletesUnderTheDefaults : Prop :=
  ∀ (i : Instr) (s : State), s.cfg.busMap = .c64 → NeverRefuses s.cfg → ∃ t, exec i s = .next t

/-- R140, R141, R142. -/
def Obligations.LoadsCompleteAndSetNZ : Prop :=
  Spec.EncodedAs .LDA [(.IMM, 0xA9#8), (.ZP, 0xA5#8), (.ZPX, 0xB5#8), (.ABS, 0xAD#8), (.ABSX, 0xBD#8), (.ABSY, 0xB9#8),
    (.INDX, 0xA1#8), (.INDY, 0xB1#8)] ∧
  Spec.EncodedAs .LDX [(.IMM, 0xA2#8), (.ZP, 0xA6#8), (.ZPY, 0xB6#8), (.ABS, 0xAE#8), (.ABSY, 0xBE#8)] ∧
  Spec.EncodedAs .LDY [(.IMM, 0xA0#8), (.ZP, 0xA4#8), (.ZPX, 0xB4#8), (.ABS, 0xAC#8), (.ABSX, 0xBC#8)] ∧
  ∀ (i : Instr) (s : State) (o : Spec.Operand), Spec.operand s i.form = some o →
    (i.mnemonic = .LDA → exec i s =
      .next (Spec.fallThrough i (i.baseCycles + o.extra) { o.st with a := o.value, p := Spec.nz s.p o.value })) ∧
    (i.mnemonic = .LDX → exec i s =
      .next (Spec.fallThrough i (i.baseCycles + o.extra) { o.st with x := o.value, p := Spec.nz s.p o.value })) ∧
    (i.mnemonic = .LDY → exec i s =
      .next (Spec.fallThrough i (i.baseCycles + o.extra) { o.st with y := o.value, p := Spec.nz s.p o.value }))

/-- R143, R144, R145: the store is one write at the effective address, no flag is written, the cost is fixed. -/
def Obligations.StoresCompleteWithOneWrite : Prop :=
  Spec.EncodedAs .STA [(.ZP, 0x85#8), (.ZPX, 0x95#8), (.ABS, 0x8D#8), (.ABSX, 0x9D#8), (.ABSY, 0x99#8), (.INDX, 0x81#8),
    (.INDY, 0x91#8)] ∧
  Spec.EncodedAs .STX [(.ZP, 0x86#8), (.ZPY, 0x96#8), (.ABS, 0x8E#8)] ∧
  Spec.EncodedAs .STY [(.ZP, 0x84#8), (.ZPX, 0x94#8), (.ABS, 0x8C#8)] ∧
  ∀ (i : Instr) (m : MemForm) (s : State) (v : Byte), i.form = .mem m → Spec.storedRegister i.mnemonic s = some v →
    s.pointerRefused m = none → (s.writeDummy m (s.resolve m)).bankWriteInvalid (s.resolve m).ea v = false →
    exec i s =
      .next (Spec.fallThrough i i.baseCycles ((s.writeDummy m (s.resolve m)).memWrite (s.resolve m).ea v))

/-- R146 to R151, R182 to R185: the transfers, and the increments and decrements of X and Y. -/
def Obligations.RegisterInstructionsComplete : Prop :=
  Spec.EncodedAs .TAX [(.IMP, 0xAA#8)] ∧ Spec.EncodedAs .TAY [(.IMP, 0xA8#8)] ∧ Spec.EncodedAs .TXA [(.IMP, 0x8A#8)] ∧
  Spec.EncodedAs .TYA [(.IMP, 0x98#8)] ∧ Spec.EncodedAs .TSX [(.IMP, 0xBA#8)] ∧ Spec.EncodedAs .TXS [(.IMP, 0x9A#8)] ∧
  Spec.EncodedAs .INX [(.IMP, 0xE8#8)] ∧ Spec.EncodedAs .INY [(.IMP, 0xC8#8)] ∧ Spec.EncodedAs .DEX [(.IMP, 0xCA#8)] ∧
  Spec.EncodedAs .DEY [(.IMP, 0x88#8)] ∧
  ∀ s : State,
    let x1 := Spec.byte (s.x.toNat + 1)
    let y1 := Spec.byte (s.y.toNat + 1)
    let x' := Spec.byte (s.x.toNat + 255)
    let y' := Spec.byte (s.y.toNat + 255)
    exec .tax s = .next (Spec.fallThrough .tax 2 { s with x := s.a, p := Spec.nz s.p s.a }) ∧
    exec .tay s = .next (Spec.fallThrough .tay 2 { s with y := s.a, p := Spec.nz s.p s.a }) ∧
    exec .txa s = .next (Spec.fallThrough .txa 2 { s with a := s.x, p := Spec.nz s.p s.x }) ∧
    exec .tya s = .next (Spec.fallThrough .tya 2 { s with a := s.y, p := Spec.nz s.p s.y }) ∧
    exec .tsx s = .next (Spec.fallThrough .tsx 2 { s with x := s.sp, p := Spec.nz s.p s.sp }) ∧
    exec .txs s = .next (Spec.fallThrough .txs 2 { s with sp := s.x }) ∧
    exec .inx s = .next (Spec.fallThrough .inx 2 { s with x := x1, p := Spec.nz s.p x1 }) ∧
    exec .iny s = .next (Spec.fallThrough .iny 2 { s with y := y1, p := Spec.nz s.p y1 }) ∧
    exec .dex s = .next (Spec.fallThrough .dex 2 { s with x := x', p := Spec.nz s.p x' }) ∧
    exec .dey s = .next (Spec.fallThrough .dey 2 { s with y := y', p := Spec.nz s.p y' })

/-- R160 to R163, R56, R57, R28, R29: the stack instructions. -/
def Obligations.StackInstructionsComplete : Prop :=
  Spec.EncodedAs .PHA [(.IMP, 0x48#8)] ∧ Spec.EncodedAs .PHP [(.IMP, 0x08#8)] ∧ Spec.EncodedAs .PLA [(.IMP, 0x68#8)] ∧
  Spec.EncodedAs .PLP [(.IMP, 0x28#8)] ∧
  ∀ s : State,
    exec .pha s = .next (Spec.fallThrough .pha 3 (Spec.push s.a s)) ∧
    exec .php s = .next (Spec.fallThrough .php 3 (Spec.push (Spec.pack s.p true) s)) ∧
    exec .pla s = .next (Spec.fallThrough .pla 4
      { (Spec.pull s).2 with a := (Spec.pull s).1, p := Spec.nz s.p (Spec.pull s).1 }) ∧
    exec .plp s = .next (Spec.fallThrough .plp 4 { (Spec.pull s).2 with p := Spec.unpack (Spec.pull s).1 })

/-- R28, R29: what is packed is what is unpacked; bits 5 and 4 of the packed byte are 1 and the break value, and are ignored on
the way back. -/
def Obligations.PackedStatusByte : Prop :=
  (∀ (p : Flags) (b : Bool), p.pack b = Spec.pack p b ∧ unpackFlags (p.pack b) = p ∧
    (p.pack b).getLsbD 5 = true ∧ (p.pack b).getLsbD 4 = b) ∧
  (∀ v w : Byte, (∀ j, j ≠ 4 → j ≠ 5 → v.getLsbD j = w.getLsbD j) → unpackFlags v = unpackFlags w)

/-- R170, R171, R173, R174: ADC and SBC with D = 0. -/
def Obligations.BinaryAddAndSubtractComplete : Prop :=
  Spec.EncodedAs .ADC [(.IMM, 0x69#8), (.ZP, 0x65#8), (.ZPX, 0x75#8), (.ABS, 0x6D#8), (.ABSX, 0x7D#8), (.ABSY, 0x79#8),
    (.INDX, 0x61#8), (.INDY, 0x71#8)] ∧
  Spec.EncodedAs .SBC [(.IMM, 0xE9#8), (.ZP, 0xE5#8), (.ZPX, 0xF5#8), (.ABS, 0xED#8), (.ABSX, 0xFD#8), (.ABSY, 0xF9#8),
    (.INDX, 0xE1#8), (.INDY, 0xF1#8)] ∧
  ∀ (i : Instr) (s : State) (o : Spec.Operand), Spec.operand s i.form = some o → s.p.d = false →
    (i.mnemonic = .ADC → exec i s = .next (Spec.fallThrough i (i.baseCycles + o.extra)
      { o.st with a := (Spec.binaryAdd s.a o.value s.p).1, p := (Spec.binaryAdd s.a o.value s.p).2 })) ∧
    (i.mnemonic = .SBC → exec i s = .next (Spec.fallThrough i (i.baseCycles + o.extra)
      { o.st with a := (Spec.binarySub s.a o.value s.p).1, p := (Spec.binarySub s.a o.value s.p).2 }))

/-- R172, R175, R176: ADC and SBC with D = 1, on every input under `NMOS_EXACT` and on valid BCD under `VALID_ONLY`, which refuses
the rest. -/
def Obligations.DecimalAddAndSubtractComplete : Prop :=
  ∀ (i : Instr) (s : State) (o : Spec.Operand), Spec.operand s i.form = some o → s.p.d = true →
    ((s.cfg.decimal = .nmosExact ∨ (Spec.isBcd s.a ∧ Spec.isBcd o.value)) →
      (i.mnemonic = .ADC → exec i s = .next (Spec.fallThrough i (i.baseCycles + o.extra)
        { o.st with a := (Spec.decimalAdd s.a o.value s.p).1, p := (Spec.decimalAdd s.a o.value s.p).2 })) ∧
      (i.mnemonic = .SBC → exec i s = .next (Spec.fallThrough i (i.baseCycles + o.extra)
        { o.st with a := (Spec.decimalSub s.a o.value s.p).1, p := (Spec.decimalSub s.a o.value s.p).2 }))) ∧
    (s.cfg.decimal = .validOnly → ¬ (Spec.isBcd s.a ∧ Spec.isBcd o.value) → (i.mnemonic = .ADC ∨ i.mnemonic = .SBC) →
      exec i s = .refused (.invalidBcd s.a o.value))

/-- R34, R172, R175: on valid BCD, ADC and SBC with D = 1 compute in decimal: the sum with its carry, the difference with its
borrow, and a valid BCD byte. -/
def Obligations.DecimalArithmeticIsDecimal : Prop :=
  ∀ (a m : Byte) (p : Flags), Spec.isBcd a → Spec.isBcd m →
    Spec.isBcd (decimalAdd a m p).1 ∧
    Spec.bcd (decimalAdd a m p).1 + 100 * Spec.num (decimalAdd a m p).2.c = Spec.bcd a + Spec.bcd m + Spec.num p.c ∧
    Spec.isBcd (decimalSub a m p).1 ∧
    Spec.bcd (decimalSub a m p).1 + Spec.bcd m + (1 - Spec.num p.c) =
      Spec.bcd a + 100 * (1 - Spec.num (decimalSub a m p).2.c)

/-- R177, R178, R179. -/
def Obligations.ComparesComplete : Prop :=
  Spec.EncodedAs .CMP [(.IMM, 0xC9#8), (.ZP, 0xC5#8), (.ZPX, 0xD5#8), (.ABS, 0xCD#8), (.ABSX, 0xDD#8), (.ABSY, 0xD9#8),
    (.INDX, 0xC1#8), (.INDY, 0xD1#8)] ∧
  Spec.EncodedAs .CPX [(.IMM, 0xE0#8), (.ZP, 0xE4#8), (.ABS, 0xEC#8)] ∧
  Spec.EncodedAs .CPY [(.IMM, 0xC0#8), (.ZP, 0xC4#8), (.ABS, 0xCC#8)] ∧
  ∀ (i : Instr) (s : State) (o : Spec.Operand), Spec.operand s i.form = some o →
    (i.mnemonic = .CMP → exec i s =
      .next (Spec.fallThrough i (i.baseCycles + o.extra) { o.st with p := Spec.compare s.a o.value s.p })) ∧
    (i.mnemonic = .CPX → exec i s =
      .next (Spec.fallThrough i (i.baseCycles + o.extra) { o.st with p := Spec.compare s.x o.value s.p })) ∧
    (i.mnemonic = .CPY → exec i s =
      .next (Spec.fallThrough i (i.baseCycles + o.extra) { o.st with p := Spec.compare s.y o.value s.p }))

/-- R200 to R203. -/
def Obligations.LogicAndBitComplete : Prop :=
  Spec.EncodedAs .AND [(.IMM, 0x29#8), (.ZP, 0x25#8), (.ZPX, 0x35#8), (.ABS, 0x2D#8), (.ABSX, 0x3D#8), (.ABSY, 0x39#8),
    (.INDX, 0x21#8), (.INDY, 0x31#8)] ∧
  Spec.EncodedAs .ORA [(.IMM, 0x09#8), (.ZP, 0x05#8), (.ZPX, 0x15#8), (.ABS, 0x0D#8), (.ABSX, 0x1D#8), (.ABSY, 0x19#8),
    (.INDX, 0x01#8), (.INDY, 0x11#8)] ∧
  Spec.EncodedAs .EOR [(.IMM, 0x49#8), (.ZP, 0x45#8), (.ZPX, 0x55#8), (.ABS, 0x4D#8), (.ABSX, 0x5D#8), (.ABSY, 0x59#8),
    (.INDX, 0x41#8), (.INDY, 0x51#8)] ∧
  Spec.EncodedAs .BIT [(.ZP, 0x24#8), (.ABS, 0x2C#8)] ∧
  ∀ (i : Instr) (s : State) (o : Spec.Operand), Spec.operand s i.form = some o →
    (i.mnemonic = .AND → exec i s = .next (Spec.fallThrough i (i.baseCycles + o.extra)
      { o.st with a := s.a &&& o.value, p := Spec.nz s.p (s.a &&& o.value) })) ∧
    (i.mnemonic = .ORA → exec i s = .next (Spec.fallThrough i (i.baseCycles + o.extra)
      { o.st with a := s.a ||| o.value, p := Spec.nz s.p (s.a ||| o.value) })) ∧
    (i.mnemonic = .EOR → exec i s = .next (Spec.fallThrough i (i.baseCycles + o.extra)
      { o.st with a := s.a ^^^ o.value, p := Spec.nz s.p (s.a ^^^ o.value) })) ∧
    (i.mnemonic = .BIT → exec i s = .next (Spec.fallThrough i (i.baseCycles + o.extra)
      { o.st with p := { s.p with
          n := decide (128 ≤ o.value.toNat), v := decide (64 ≤ o.value.toNat % 128),
          z := decide ((s.a &&& o.value).toNat = 0) } }))

/-- R180, R181, R204 to R207: INC, DEC, the shifts and the rotates, in memory and on the accumulator. -/
def Obligations.ReadModifyWriteCompletes : Prop :=
  Spec.EncodedAs .INC [(.ZP, 0xE6#8), (.ZPX, 0xF6#8), (.ABS, 0xEE#8), (.ABSX, 0xFE#8)] ∧
  Spec.EncodedAs .DEC [(.ZP, 0xC6#8), (.ZPX, 0xD6#8), (.ABS, 0xCE#8), (.ABSX, 0xDE#8)] ∧
  Spec.EncodedAs .ASL [(.ACC, 0x0A#8), (.ZP, 0x06#8), (.ZPX, 0x16#8), (.ABS, 0x0E#8), (.ABSX, 0x1E#8)] ∧
  Spec.EncodedAs .LSR [(.ACC, 0x4A#8), (.ZP, 0x46#8), (.ZPX, 0x56#8), (.ABS, 0x4E#8), (.ABSX, 0x5E#8)] ∧
  Spec.EncodedAs .ROL [(.ACC, 0x2A#8), (.ZP, 0x26#8), (.ZPX, 0x36#8), (.ABS, 0x2E#8), (.ABSX, 0x3E#8)] ∧
  Spec.EncodedAs .ROR [(.ACC, 0x6A#8), (.ZP, 0x66#8), (.ZPX, 0x76#8), (.ABS, 0x6E#8), (.ABSX, 0x7E#8)] ∧
  (∀ (i : Instr) (m : MemForm) (s : State) (r : Byte × Flags), i.form = .mem m →
    Spec.modify i.mnemonic (s.rmwByte m) s.p = some r →
    (s.afterRmwRead m).rmwInvalid (s.resolve m).ea (s.rmwByte m) r.1 = false →
    exec i s = .next (Spec.fallThrough i i.baseCycles
      { (s.afterRmwRead m).rmwWrite (s.resolve m).ea (s.rmwByte m) r.1 with p := r.2 })) ∧
  (∀ (i : Instr) (s : State) (r : Byte × Flags), i.form = .acc → Spec.modify i.mnemonic s.a s.p = some r →
    exec i s = .next (Spec.fallThrough i 2 { s with a := r.1, p := r.2 }))

/-- R220 to R228: the branches. -/
def Obligations.BranchesComplete : Prop :=
  Spec.EncodedAs .BCC [(.REL, 0x90#8)] ∧ Spec.EncodedAs .BCS [(.REL, 0xB0#8)] ∧ Spec.EncodedAs .BEQ [(.REL, 0xF0#8)] ∧
  Spec.EncodedAs .BNE [(.REL, 0xD0#8)] ∧ Spec.EncodedAs .BMI [(.REL, 0x30#8)] ∧ Spec.EncodedAs .BPL [(.REL, 0x10#8)] ∧
  Spec.EncodedAs .BVC [(.REL, 0x50#8)] ∧ Spec.EncodedAs .BVS [(.REL, 0x70#8)] ∧
  ∀ (i : Instr) (s : State) (rel : Byte) (taken : Bool), i.form = .rel rel → Spec.taken i.mnemonic s.p = some taken →
    let next := Spec.addr (s.pc.toNat + 2)
    let target := Spec.target s rel
    exec i s = .next
      (if taken = true then
        { s with pc := target, cycles := s.cycles + if Spec.page next ≠ Spec.page target then 4 else 3 }
      else { s with pc := next, cycles := s.cycles + 2 })

/-- R229, R55: JMP in both modes. -/
def Obligations.JumpsComplete : Prop :=
  Spec.EncodedAs .JMP [(.ABS, 0x4C#8), (.IND, 0x6C#8)] ∧
  ∀ (s : State) (w : Addr),
    exec (.jmpAbs w) s = .next { s with pc := w, cycles := s.cycles + 3 } ∧
    (let w' := Spec.addr (w.toNat / 256 * 256 + (w.toNat + 1) % 256)
     let s1 := s.afterRead w
     exec (.jmpInd w) s =
       .next { s1.afterRead w' with pc := Spec.word (s1.peek w') (s.peek w), cycles := s.cycles + 5 })

/-- R230, R231: JSR and RTS. -/
def Obligations.SubroutineCallAndReturnComplete : Prop :=
  Spec.EncodedAs .JSR [(.ABS, 0x20#8)] ∧ Spec.EncodedAs .RTS [(.IMP, 0x60#8)] ∧
  ∀ (s : State) (w : Addr),
    (let ret := Spec.addr (s.pc.toNat + 2)
     exec (.jsr w) s =
       .next { Spec.push (Spec.byte ret.toNat) (Spec.push (Spec.byte (ret.toNat / 256)) s) with
         pc := w, cycles := s.cycles + 6 }) ∧
    (let lo := Spec.pull s
     let hi := Spec.pull lo.2
     exec .rts s =
       .next { hi.2 with pc := Spec.addr ((Spec.word hi.1 lo.1).toNat + 1), cycles := s.cycles + 6 })

/-- R232, R272: RTI. -/
def Obligations.ReturnFromInterruptCompletes : Prop :=
  Spec.EncodedAs .RTI [(.IMP, 0x40#8)] ∧
  ∀ s : State,
    let p := Spec.pull s
    let lo := Spec.pull { p.2 with p := Spec.unpack p.1 }
    let hi := Spec.pull lo.2
    exec .rti s = .next { hi.2 with pc := Spec.word hi.1 lo.1, cycles := s.cycles + 6 }

/-- R233, R270: BRK takes the trap, whatever I is. -/
def Obligations.BreakTakesTheTrap : Prop :=
  Spec.EncodedAs .BRK [(.IMP, 0x00#8)] ∧
  ∀ s : State,
    exec .brk s = .next { Spec.entry (Spec.addr (s.pc.toNat + 2)) true 0xFFFE s with cycles := s.cycles + 7 }

/-- R240 to R247: the flag instructions and NOP. -/
def Obligations.FlagInstructionsAndNopComplete : Prop :=
  Spec.EncodedAs .CLC [(.IMP, 0x18#8)] ∧ Spec.EncodedAs .SEC [(.IMP, 0x38#8)] ∧ Spec.EncodedAs .CLI [(.IMP, 0x58#8)] ∧
  Spec.EncodedAs .SEI [(.IMP, 0x78#8)] ∧ Spec.EncodedAs .CLD [(.IMP, 0xD8#8)] ∧ Spec.EncodedAs .SED [(.IMP, 0xF8#8)] ∧
  Spec.EncodedAs .CLV [(.IMP, 0xB8#8)] ∧ Spec.EncodedAs .NOP [(.IMP, 0xEA#8)] ∧
  ∀ s : State,
    exec .clc s = .next (Spec.fallThrough .clc 2 { s with p := { s.p with c := false } }) ∧
    exec .sec s = .next (Spec.fallThrough .sec 2 { s with p := { s.p with c := true } }) ∧
    exec .cli s = .next (Spec.fallThrough .cli 2 { s with p := { s.p with i := false } }) ∧
    exec .sei s = .next (Spec.fallThrough .sei 2 { s with p := { s.p with i := true } }) ∧
    exec .cld s = .next (Spec.fallThrough .cld 2 { s with p := { s.p with d := false } }) ∧
    exec .sed s = .next (Spec.fallThrough .sed 2 { s with p := { s.p with d := true } }) ∧
    exec .clv s = .next (Spec.fallThrough .clv 2 { s with p := { s.p with v := false } }) ∧
    exec .nop s = .next (Spec.fallThrough .nop 2 s)

/-! ### Whole-machine rules -/

/-- R21, R22, R23, R25, R37, R38, R44, R45: each register is written by its listed instructions and by no other; no instruction
touches a latch, the run status, the hidden state of R44 and R45, or (the model's own, log 10) `lastWasMaskOp`. -/
def Obligations.RegistersAreWrittenOnlyByTheirInstructions : Prop :=
  ∀ (i : Instr) (s t : State), exec i s = .next t →
    (¬ Spec.writesA i → t.a = s.a) ∧ (¬ Spec.writesX i → t.x = s.x) ∧ (¬ Spec.writesY i → t.y = s.y) ∧
    (¬ Spec.writesS i → t.sp = s.sp) ∧
    t.nmiPending = s.nmiPending ∧ t.irqPending = s.irqPending ∧ t.halted = s.halted ∧
    t.lastWasService = s.lastWasService ∧ t.iAtLastBoundary = s.iAtLastBoundary ∧ t.lastWasMaskOp = s.lastWasMaskOp

/-- R35: each flag is written by its listed instructions and by no other. -/
def Obligations.FlagsAreWrittenOnlyByTheirInstructions : Prop :=
  ∀ (i : Instr) (s t : State), exec i s = .next t →
    (¬ Spec.writesNZ i → t.p.n = s.p.n ∧ t.p.z = s.p.z) ∧ (¬ Spec.writesV i → t.p.v = s.p.v) ∧
    (¬ Spec.writesC i → t.p.c = s.p.c) ∧ (¬ Spec.writesI i → t.p.i = s.p.i) ∧ (¬ Spec.writesD i → t.p.d = s.p.d)

/-- R126, R56: no instruction changes a RAM byte or a port register at an address it does not store to; one that stores nothing
changes none. `Spec.storedAt` computes the addresses with the functions the meanings use. Through the bus: an instruction that stores
to neither port register leaves every RAM or ROM address it does not store to, and PortDDR, reading as before. -/
def Obligations.MemoryChangesOnlyWhereInstructionsStore : Prop :=
  ∀ (i : Instr) (s t : State), exec i s = .next t →
    (∀ a : Addr, a ∉ Spec.storedAt i s → t.ram.read a.toNat = s.ram.read a.toNat) ∧
    (0x0000#16 ∉ Spec.storedAt i s → t.portDDR = s.portDDR) ∧
    (0x0001#16 ∉ Spec.storedAt i s → t.portDATA = s.portDATA) ∧
    (Spec.storedAt i s = [] → t.ram = s.ram) ∧
    (0x0000#16 ∉ Spec.storedAt i s → 0x0001#16 ∉ Spec.storedAt i s → ∀ a : Addr, a ∉ Spec.storedAt i s →
      (a = 0x0000#16 ∨ s.select a .read = .ram ∨ s.select a .read = .basic ∨ s.select a .read = .kernal ∨
        s.select a .read = .char) →
      t.peek a = s.peek a)

/-- R37: a latch is cleared only when its interrupt is serviced, and a step never sets one. -/
def Obligations.LatchesAreClearedOnlyByTheirService : Prop :=
  ∀ s t : State, step s = .next t →
    (t.nmiPending = (s.nmiPending && decide (s.poll ≠ some .nmi))) ∧
    (t.irqPending = (s.irqPending && decide (s.poll ≠ some .irq)))

/-- R33: I changes only by SEI, CLI, PLP, RTI, BRK or an interrupt service. -/
def Obligations.OnlyTheseStepsChangeTheInterruptMask : Prop :=
  ∀ s t : State, step s = .next t → t.p.i ≠ s.p.i →
    (∃ k, s.poll = some k ∧ t.p.i = true) ∨
    (∃ i u, s.fetch = .next (i, u) ∧
      (i.mnemonic = .SEI ∧ t.p.i = true ∨ i.mnemonic = .CLI ∧ t.p.i = false ∨ i.mnemonic = .BRK ∧ t.p.i = true ∨
        i.mnemonic = .PLP ∨ i.mnemonic = .RTI))

/-- R34: no instruction but ADC and SBC depends on D; PHP and BRK copy it to the stack; CLD, SED, PLP and RTI write it. -/
def Obligations.OnlyAddAndSubtractDependOnD : Prop :=
  ∀ (i : Instr) (s : State) (b : Bool),
    i.mnemonic ∉ [.ADC, .SBC, .PHP, .BRK, .CLD, .SED, .PLP, .RTI] →
    exec i (Spec.withD b s) = Spec.resultWithD b (exec i s)

/-- R320: the cost of an instruction is exactly base + page + branch, with the base costs of R321 by class and mode, which are those
of the table, and "+1 on page cross" in the table exactly for the read class in ABSX, ABSY and INDY (R125). An interrupt service costs
7, a faulting step 0. -/
def Obligations.CycleCostIsExact : Prop :=
  (∀ i : Instr, i.baseCycles = Spec.baseCost i ∧ (i.pagePenalty = true ↔ Spec.paysForCrossing i)) ∧
  (∀ (i : Instr) (s t : State), exec i s = .next t →
    t.cycles = s.cycles + Spec.baseCost i + Spec.pageCycles i s + Spec.branchCycles i s) ∧
  (∀ (s t : State) (k : Interrupt), s.halted = none → s.poll = some k → step s = .next t → t.cycles = s.cycles + 7) ∧
  (∀ (s : State) (f : Fault), step s = .fault f → s.advance.cycles = s.cycles)

/-- R36, R321: every step that commits costs 2 to 7 cycles, so `Cycles` only rises. -/
def Obligations.EveryStepCostsTwoToSevenCycles : Prop :=
  ∀ s t : State, step s = .next t → s.cycles + 2 ≤ t.cycles ∧ t.cycles ≤ s.cycles + 7

/-- The invariant is kept by every step: canonical memory inside the space, a valid bank configuration, I set after a service. -/
def Obligations.EveryStepKeepsTheInvariant : Prop := ∀ s t : State, s.Inv → step s = .next t → t.Inv

/-- Pacing changes no state (R288). The ticks are the model's choice (log 19, DESIGN CHOICE). One tick: with the throttle on and no
cycle left it grants a batch of PACER_BATCH and keeps the state; otherwise the core takes one whole step, whose cost is charged, an
overrun to the next batch. So, whatever the batch and the throttle, a paced run ends in a state that the unpaced machine reaches in no
more steps than there were ticks, and stops only as it does; and every run of the unpaced machine, with its end, is that of a paced run
of some number of ticks, from every credit: the pacer holds the core up for a finite number of ticks only. -/
def Obligations.PacingChangesNoState : Prop :=
  ∀ (k : Nat) (credit : Int) (s : State),
    (s.cfg.throttle = true → credit ≤ 0 → pacedTick credit s = .next (credit + s.cfg.pacerBatch.val, s)) ∧
    (s.cfg.throttle = false ∨ 0 < credit →
      (∀ t, step s = .next t → pacedTick credit s = .next (credit - ((t.cycles : Int) - s.cycles), t)) ∧
      (∀ f, step s = .fault f → pacedTick credit s = .fault f) ∧
      (∀ r, step s = .refused r → pacedTick credit s = .refused r)) ∧
    (s.cfg.throttle = true → ∃ n : Nat, 0 < credit + n * s.cfg.pacerBatch.val ∧
      pacedRun n credit s = .next (credit + n * s.cfg.pacerBatch.val, s)) ∧
    (∀ t, core.run k s = .next t → ∃ n c, k ≤ n ∧ pacedRun n credit s = .next (c, t)) ∧
    (∀ f, core.run k s = .fault f → ∃ n, pacedRun n credit s = .fault f) ∧
    (∀ r, core.run k s = .refused r → ∃ n, pacedRun n credit s = .refused r) ∧
    (∀ c t, pacedRun k credit s = .next (c, t) → ∃ n, n ≤ k ∧ core.run n s = .next t) ∧
    (∀ f, pacedRun k credit s = .fault f → ∃ n, n ≤ k ∧ core.run n s = .fault f) ∧
    (∀ r, pacedRun k credit s = .refused r → ∃ n, n ≤ k ∧ core.run n s = .refused r) ∧
    (s.cfg.throttle = false → ∀ c t, pacedRun k credit s = .next (c, t) → core.run k s = .next t)

/-- R262: between steps a collaborator sets latches and touches the bus, and changes no register, flag, `Cycles` or set latch. -/
def Obligations.CollaboratorsLeaveTheRegisters : Prop :=
  ∀ (s : State) (e : BoundaryEvent), (∀ d, e ≠ .reset d) →
    let t := s.boundary e
    t.a = s.a ∧ t.x = s.x ∧ t.y = s.y ∧ t.sp = s.sp ∧ t.pc = s.pc ∧ t.p = s.p ∧ t.cycles = s.cycles ∧
    (s.nmiPending = true → t.nmiPending = true) ∧ (s.irqPending = true → t.irqPending = true) ∧
    (s.ram.wf = true → t.ram.wf = true) ∧ t.halted = s.halted ∧ t.cfg = s.cfg ∧
    (e = .raiseNmi → t = { s with nmiPending := true }) ∧ (e = .raiseIrq → t = { s with irqPending := true }) ∧
    (e = .pauseAndResume → t = s)
end

