-- ==== Sys2Proof/Laws/Bits.lean ====
section
/-! SUPPORT. The bit-field helpers as arithmetic: what each is as a number, and that splitting and joining a word are inverse. -/

namespace Sys2Proof

theorem wordOf_toNat (h l : Byte) : (wordOf h l).toNat = 256 * h.toNat + l.toNat := by
  rw [wordOf, BitVec.toNat_append, ← Nat.shiftLeft_add_eq_or_of_lt l.isLt, Nat.shiftLeft_eq]
  omega

theorem loByte_toNat (w : Addr) : (loByte w).toNat = w.toNat % 256 := by
  rw [loByte, BitVec.toNat_setWidth]

theorem hiByte_toNat (w : Addr) : (hiByte w).toNat = w.toNat / 256 := by
  rw [hiByte, BitVec.toNat_setWidth, BitVec.toNat_ushiftRight, Nat.shiftRight_eq_div_pow]
  omega

theorem zext16_toNat (v : Byte) : (zext16 v).toNat = v.toNat := by
  rw [zext16, BitVec.toNat_setWidth]; omega

theorem sext16_eq_ofInt (v : Byte) : sext16 v = BitVec.ofInt 16 v.toInt := rfl

@[simp] theorem loByte_wordOf (h l : Byte) : loByte (wordOf h l) = l :=
  BitVec.eq_of_toNat_eq (by rw [loByte_toNat, wordOf_toNat]; omega)

@[simp] theorem hiByte_wordOf (h l : Byte) : hiByte (wordOf h l) = h :=
  BitVec.eq_of_toNat_eq (by rw [hiByte_toNat, wordOf_toNat]; omega)

@[simp] theorem wordOf_hiByte_loByte (w : Addr) : wordOf (hiByte w) (loByte w) = w :=
  BitVec.eq_of_toNat_eq (by rw [wordOf_toNat, hiByte_toNat, loByte_toNat]; omega)

/-- Two addresses differ in page exactly when their numbers do (R12, R124). -/
theorem hiByte_ne_iff (v w : Addr) : hiByte v ≠ hiByte w ↔ v.toNat / 256 ≠ w.toNat / 256 := by
  rw [← hiByte_toNat, ← hiByte_toNat, Ne, Ne, BitVec.toNat_inj]

/-- The second byte of `Read16pw` stays in the page (R55). -/
theorem Machine.samePageNext_toNat (w : Addr) :
    (Machine.samePageNext w).toNat = w.toNat / 256 * 256 + (w.toNat + 1) % 256 := by
  rw [Machine.samePageNext, wordOf_toNat, hiByte_toNat, BitVec.toNat_add, loByte_toNat]
  simp
  omega

@[simp] theorem bitNat_false : bitNat false = 0 := rfl
@[simp] theorem bitNat_true : bitNat true = 1 := rfl

theorem bitNat_le_one (b : Bool) : bitNat b ≤ 1 := by cases b <;> decide

end Sys2Proof
end

