-- ==== Sys2Proof/Laws/Memory.lean ====
section
/-! SUPPORT. The laws of `Memory`: a read after a write, the canonical form is kept, and equal reads mean equal memories. -/

namespace Sys2Proof

@[simp] theorem Memory.read_nil (a : Nat) : Memory.read [] a = Memory.unlisted := rfl

theorem Memory.read_cons (k : Nat) (v : Byte) (m : Memory) (a : Nat) :
    Memory.read ((k, v) :: m) a = if a = k then v else Memory.read m a := rfl

/-- Below the lower bound nothing is listed. -/
theorem Memory.read_below {lo a : Nat} {m : Memory} (h : Memory.wfFrom lo m = true) (ha : a < lo) :
    m.read a = Memory.unlisted := by
  induction m generalizing lo with
  | nil => rfl
  | cons c m ih =>
    obtain ⟨k, v⟩ := c
    simp only [Memory.wfFrom, Bool.and_eq_true, decide_eq_true_eq] at h
    rw [Memory.read_cons, if_neg (by omega)]
    exact ih h.2 (by omega)

/-- A lower lower bound still holds. -/
theorem Memory.wfFrom_mono {lo lo' : Nat} {m : Memory} (h : Memory.wfFrom lo m = true) (hl : lo' ≤ lo) :
    Memory.wfFrom lo' m = true := by
  cases m with
  | nil => rfl
  | cons c m =>
    obtain ⟨k, v⟩ := c
    simp only [Memory.wfFrom, Bool.and_eq_true, decide_eq_true_eq] at h ⊢
    exact ⟨⟨by omega, h.1.2⟩, h.2⟩

/-- Putting an entry in front keeps the form. -/
theorem Memory.wfFrom_entry {lo a : Nat} {v : Byte} {m : Memory} (h : Memory.wfFrom (a + 1) m = true) (ha : lo ≤ a) :
    Memory.wfFrom lo (Memory.entry a v m) = true := by
  unfold Memory.entry
  split
  · exact Memory.wfFrom_mono h (by omega)
  · simp_all [Memory.wfFrom]

/-- An entry in front answers its own address. -/
theorem Memory.read_entry_same {a : Nat} {v : Byte} {m : Memory} (h : Memory.wfFrom (a + 1) m = true) :
    (Memory.entry a v m).read a = v := by
  unfold Memory.entry
  split
  · next hv => rw [Memory.read_below h (by omega), hv]
  · simp [Memory.read_cons]

/-- An entry in front changes no other address. -/
theorem Memory.read_entry_other {a b : Nat} {v : Byte} {m : Memory} (hb : b ≠ a) :
    (Memory.entry a v m).read b = m.read b := by
  unfold Memory.entry
  split
  · rfl
  · rw [Memory.read_cons, if_neg hb]

/-- A write keeps the canonical form, from any lower bound that the address respects. -/
theorem Memory.wfFrom_write {lo a : Nat} {v : Byte} {m : Memory} (h : Memory.wfFrom lo m = true) (ha : lo ≤ a) :
    Memory.wfFrom lo (m.write a v) = true := by
  induction m generalizing lo with
  | nil => exact Memory.wfFrom_entry rfl ha
  | cons c m ih =>
    obtain ⟨k, w⟩ := c
    simp only [Memory.wfFrom, Bool.and_eq_true, decide_eq_true_eq] at h
    unfold Memory.write
    split
    · refine Memory.wfFrom_entry ?_ ha
      simp only [Memory.wfFrom, Bool.and_eq_true, decide_eq_true_eq]
      exact ⟨⟨by omega, h.1.2⟩, h.2⟩
    · split
      · next hk => subst hk; exact Memory.wfFrom_entry h.2 ha
      · simp only [Memory.wfFrom, Bool.and_eq_true, decide_eq_true_eq]
        exact ⟨h.1, ih h.2 (by omega)⟩

/-- A write keeps the canonical form. -/
theorem Memory.wf_write {m : Memory} (h : m.wf = true) (a : Nat) (v : Byte) : (m.write a v).wf = true :=
  Memory.wfFrom_write h (Nat.zero_le a)

/-- A read after a write to the same address gives the value written. -/
theorem Memory.read_write_same {lo a : Nat} {v : Byte} {m : Memory} (h : Memory.wfFrom lo m = true) :
    (m.write a v).read a = v := by
  induction m generalizing lo with
  | nil => exact Memory.read_entry_same rfl
  | cons c m ih =>
    obtain ⟨k, w⟩ := c
    simp only [Memory.wfFrom, Bool.and_eq_true, decide_eq_true_eq] at h
    unfold Memory.write
    split
    · refine Memory.read_entry_same ?_
      simp only [Memory.wfFrom, Bool.and_eq_true, decide_eq_true_eq]
      exact ⟨⟨by omega, h.1.2⟩, h.2⟩
    · split
      · next hk => subst hk; exact Memory.read_entry_same h.2
      · next hk => rw [Memory.read_cons, if_neg hk]; exact ih h.2

/-- A write changes no other address; this needs no canonical form. -/
theorem Memory.read_write_other (m : Memory) {a b : Nat} (v : Byte) (hb : b ≠ a) : (m.write a v).read b = m.read b := by
  induction m with
  | nil => exact Memory.read_entry_other hb
  | cons c m ih =>
    obtain ⟨k, w⟩ := c
    unfold Memory.write
    split
    · exact Memory.read_entry_other hb
    · split
      · next hk => subst hk; rw [Memory.read_entry_other hb, Memory.read_cons, if_neg hb]
      · rw [Memory.read_cons, Memory.read_cons, ih]

/-- Both together. -/
theorem Memory.read_write {m : Memory} (h : m.wf = true) (a b : Nat) (v : Byte) :
    (m.write a v).read b = if b = a then v else m.read b := by
  split
  · next hb => subst hb; exact Memory.read_write_same h
  · next hb => exact Memory.read_write_other m v hb

/-- Listed addresses stay below a bound that the written address respects. -/
theorem Memory.within_write {n a : Nat} {m : Memory} (v : Byte) (h : m.within n = true) (ha : a < n) :
    (m.write a v).within n = true := by
  have hentry : ∀ m' : Memory, m'.within n = true → (Memory.entry a v m').within n = true := by
    intro m' h'
    unfold Memory.entry
    split
    · exact h'
    · simpa [Memory.within, ha] using h'
  induction m with
  | nil => exact hentry [] rfl
  | cons c m ih =>
    obtain ⟨k, w⟩ := c
    have h2 : k < n ∧ Memory.within n m = true := by simpa [Memory.within] using h
    unfold Memory.write
    split
    · exact hentry _ h
    · split
      · exact hentry _ h2.2
      · have := ih h2.2
        simp only [Memory.within, List.all_cons, Bool.and_eq_true, decide_eq_true_eq] at this ⊢
        exact ⟨h2.1, this⟩

/-- Equal memories are equal lists: canonical memories that read alike are the same. -/
theorem Memory.ext_read {lo : Nat} {m m' : Memory} (h : Memory.wfFrom lo m = true) (h' : Memory.wfFrom lo m' = true)
    (heq : ∀ a, m.read a = m'.read a) : m = m' := by
  induction m generalizing lo m' with
  | nil =>
    cases m' with
    | nil => rfl
    | cons c m' =>
      obtain ⟨k, v⟩ := c
      simp only [Memory.wfFrom, Bool.and_eq_true, decide_eq_true_eq] at h'
      have := heq k
      simp [Memory.read_cons] at this
      exact absurd this.symm h'.1.2
  | cons c m ih =>
    obtain ⟨k, v⟩ := c
    simp only [Memory.wfFrom, Bool.and_eq_true, decide_eq_true_eq] at h
    cases m' with
    | nil =>
      have := heq k
      simp [Memory.read_cons] at this
      exact absurd this h.1.2
    | cons c' m' =>
      obtain ⟨k', v'⟩ := c'
      simp only [Memory.wfFrom, Bool.and_eq_true, decide_eq_true_eq] at h'
      have hk : k = k' := by
        rcases Nat.lt_trichotomy k k' with hlt | heq' | hlt
        · have e := heq k
          rw [Memory.read_cons, Memory.read_cons, if_pos rfl, if_neg (by omega),
            Memory.read_below h'.2 (by omega)] at e
          exact absurd e h.1.2
        · exact heq'
        · have e := heq k'
          rw [Memory.read_cons, Memory.read_cons, if_pos rfl, if_neg (by omega),
            Memory.read_below h.2 (by omega)] at e
          exact absurd e.symm h'.1.2
      subst hk
      have hv : v = v' := by simpa [Memory.read_cons] using heq k
      subst hv
      rw [ih h.2 h'.2 fun a => ?_]
      by_cases ha : a = k
      · subst ha; rw [Memory.read_below h.2 (by omega), Memory.read_below h'.2 (by omega)]
      · simpa [Memory.read_cons, ha] using heq a

/-- An image in canonical form. -/
theorem Memory.wfFrom_ofBytes (a : Nat) (bs : List Byte) : Memory.wfFrom a (Memory.ofBytes a bs) = true := by
  induction bs generalizing a with
  | nil => rfl
  | cons v bs ih => exact Memory.wfFrom_entry (ih (a + 1)) (Nat.le_refl a)

/-- An image reads as its bytes. -/
theorem Memory.read_ofBytes (a : Nat) (bs : List Byte) (i : Nat) (hi : i < bs.length) :
    (Memory.ofBytes a bs).read (a + i) = bs[i] := by
  induction bs generalizing a i with
  | nil => simp at hi
  | cons v bs ih =>
    cases i with
    | zero => exact Memory.read_entry_same (Memory.wfFrom_ofBytes (a + 1) bs)
    | succ i =>
      have := ih (a + 1) i (by simpa using hi)
      rw [Memory.ofBytes, Memory.read_entry_other (by omega)]
      simpa [Nat.add_assoc, Nat.add_comm 1 i] using this

/-- An image lists nothing past its end. -/
theorem Memory.within_ofBytes (a : Nat) (bs : List Byte) : (Memory.ofBytes a bs).within (a + bs.length) = true := by
  induction bs generalizing a with
  | nil => rfl
  | cons v bs ih =>
    have h := ih (a + 1)
    have e : a + 1 + bs.length = a + (v :: bs).length := by simp; omega
    rw [e] at h
    unfold Memory.ofBytes Memory.entry
    split
    · exact h
    · simpa [Memory.within] using h

end Sys2Proof
end

