-- ==== Sys2Proof/Laws/State.lean ====
section
/-! SUPPORT. One lemma per field per named update of the state, each true by unfolding once, so that no later proof unfolds a
record update. The fields a lemma leaves out (a port register after a push, PC after an exception) have one in Laws/Bus.lean or
Laws/Exceptions.lean. -/

namespace Sys2Proof.Machine

/-! ### `afterRead` -/

@[simp] theorem afterRead_a (s : State) (a : Addr) : (s.afterRead a).a = s.a := rfl
@[simp] theorem afterRead_x (s : State) (a : Addr) : (s.afterRead a).x = s.x := rfl
@[simp] theorem afterRead_y (s : State) (a : Addr) : (s.afterRead a).y = s.y := rfl
@[simp] theorem afterRead_sp (s : State) (a : Addr) : (s.afterRead a).sp = s.sp := rfl
@[simp] theorem afterRead_pc (s : State) (a : Addr) : (s.afterRead a).pc = s.pc := rfl
@[simp] theorem afterRead_p (s : State) (a : Addr) : (s.afterRead a).p = s.p := rfl
@[simp] theorem afterRead_nmiPending (s : State) (a : Addr) : (s.afterRead a).nmiPending = s.nmiPending := rfl
@[simp] theorem afterRead_irqPending (s : State) (a : Addr) : (s.afterRead a).irqPending = s.irqPending := rfl
@[simp] theorem afterRead_cycles (s : State) (a : Addr) : (s.afterRead a).cycles = s.cycles := rfl
@[simp] theorem afterRead_ram (s : State) (a : Addr) : (s.afterRead a).ram = s.ram := rfl
@[simp] theorem afterRead_portDDR (s : State) (a : Addr) : (s.afterRead a).portDDR = s.portDDR := rfl
@[simp] theorem afterRead_portDATA (s : State) (a : Addr) : (s.afterRead a).portDATA = s.portDATA := rfl
@[simp] theorem afterRead_halted (s : State) (a : Addr) : (s.afterRead a).halted = s.halted := rfl
@[simp] theorem afterRead_lastWasService (s : State) (a : Addr) : (s.afterRead a).lastWasService = s.lastWasService := rfl
@[simp] theorem afterRead_iAtLastBoundary (s : State) (a : Addr) : (s.afterRead a).iAtLastBoundary = s.iAtLastBoundary := rfl
@[simp] theorem afterRead_lastWasMaskOp (s : State) (a : Addr) : (s.afterRead a).lastWasMaskOp = s.lastWasMaskOp := rfl
@[simp] theorem afterRead_draws (s : State) (a : Addr) : (s.afterRead a).draws = s.drawsAfterRead a := rfl
@[simp] theorem afterRead_ioLog (s : State) (a : Addr) : (s.afterRead a).ioLog = s.ioLogAfterRead a := rfl
@[simp] theorem afterRead_cfg (s : State) (a : Addr) : (s.afterRead a).cfg = s.cfg := rfl

/-! ### `memWrite` -/

@[simp] theorem memWrite_a (s : State) (a : Addr) (v : Byte) : (s.memWrite a v).a = s.a := rfl
@[simp] theorem memWrite_x (s : State) (a : Addr) (v : Byte) : (s.memWrite a v).x = s.x := rfl
@[simp] theorem memWrite_y (s : State) (a : Addr) (v : Byte) : (s.memWrite a v).y = s.y := rfl
@[simp] theorem memWrite_sp (s : State) (a : Addr) (v : Byte) : (s.memWrite a v).sp = s.sp := rfl
@[simp] theorem memWrite_pc (s : State) (a : Addr) (v : Byte) : (s.memWrite a v).pc = s.pc := rfl
@[simp] theorem memWrite_p (s : State) (a : Addr) (v : Byte) : (s.memWrite a v).p = s.p := rfl
@[simp] theorem memWrite_nmiPending (s : State) (a : Addr) (v : Byte) : (s.memWrite a v).nmiPending = s.nmiPending := rfl
@[simp] theorem memWrite_irqPending (s : State) (a : Addr) (v : Byte) : (s.memWrite a v).irqPending = s.irqPending := rfl
@[simp] theorem memWrite_cycles (s : State) (a : Addr) (v : Byte) : (s.memWrite a v).cycles = s.cycles := rfl
@[simp] theorem memWrite_ram (s : State) (a : Addr) (v : Byte) : (s.memWrite a v).ram = s.ramAfterWrite a v := rfl
@[simp] theorem memWrite_portDDR (s : State) (a : Addr) (v : Byte) : (s.memWrite a v).portDDR = if a = 0x0000#16 then v else s.portDDR := rfl
@[simp] theorem memWrite_portDATA (s : State) (a : Addr) (v : Byte) : (s.memWrite a v).portDATA = if a = 0x0001#16 then v else s.portDATA := rfl
@[simp] theorem memWrite_halted (s : State) (a : Addr) (v : Byte) : (s.memWrite a v).halted = s.halted := rfl
@[simp] theorem memWrite_lastWasService (s : State) (a : Addr) (v : Byte) : (s.memWrite a v).lastWasService = s.lastWasService := rfl
@[simp] theorem memWrite_iAtLastBoundary (s : State) (a : Addr) (v : Byte) : (s.memWrite a v).iAtLastBoundary = s.iAtLastBoundary := rfl
@[simp] theorem memWrite_lastWasMaskOp (s : State) (a : Addr) (v : Byte) : (s.memWrite a v).lastWasMaskOp = s.lastWasMaskOp := rfl
@[simp] theorem memWrite_draws (s : State) (a : Addr) (v : Byte) : (s.memWrite a v).draws = s.draws := rfl
@[simp] theorem memWrite_ioLog (s : State) (a : Addr) (v : Byte) : (s.memWrite a v).ioLog = s.ioLogAfterWrite a v := rfl
@[simp] theorem memWrite_cfg (s : State) (a : Addr) (v : Byte) : (s.memWrite a v).cfg = s.cfg := rfl

/-! ### `loadA` -/

@[simp] theorem loadA_a (s : State) (v : Byte) : (s.loadA v).a = v := rfl
@[simp] theorem loadA_x (s : State) (v : Byte) : (s.loadA v).x = s.x := rfl
@[simp] theorem loadA_y (s : State) (v : Byte) : (s.loadA v).y = s.y := rfl
@[simp] theorem loadA_sp (s : State) (v : Byte) : (s.loadA v).sp = s.sp := rfl
@[simp] theorem loadA_pc (s : State) (v : Byte) : (s.loadA v).pc = s.pc := rfl
@[simp] theorem loadA_p (s : State) (v : Byte) : (s.loadA v).p = s.p.setNZ v := rfl
@[simp] theorem loadA_nmiPending (s : State) (v : Byte) : (s.loadA v).nmiPending = s.nmiPending := rfl
@[simp] theorem loadA_irqPending (s : State) (v : Byte) : (s.loadA v).irqPending = s.irqPending := rfl
@[simp] theorem loadA_cycles (s : State) (v : Byte) : (s.loadA v).cycles = s.cycles := rfl
@[simp] theorem loadA_ram (s : State) (v : Byte) : (s.loadA v).ram = s.ram := rfl
@[simp] theorem loadA_portDDR (s : State) (v : Byte) : (s.loadA v).portDDR = s.portDDR := rfl
@[simp] theorem loadA_portDATA (s : State) (v : Byte) : (s.loadA v).portDATA = s.portDATA := rfl
@[simp] theorem loadA_halted (s : State) (v : Byte) : (s.loadA v).halted = s.halted := rfl
@[simp] theorem loadA_lastWasService (s : State) (v : Byte) : (s.loadA v).lastWasService = s.lastWasService := rfl
@[simp] theorem loadA_iAtLastBoundary (s : State) (v : Byte) : (s.loadA v).iAtLastBoundary = s.iAtLastBoundary := rfl
@[simp] theorem loadA_lastWasMaskOp (s : State) (v : Byte) : (s.loadA v).lastWasMaskOp = s.lastWasMaskOp := rfl
@[simp] theorem loadA_draws (s : State) (v : Byte) : (s.loadA v).draws = s.draws := rfl
@[simp] theorem loadA_ioLog (s : State) (v : Byte) : (s.loadA v).ioLog = s.ioLog := rfl
@[simp] theorem loadA_cfg (s : State) (v : Byte) : (s.loadA v).cfg = s.cfg := rfl

/-! ### `loadX` -/

@[simp] theorem loadX_a (s : State) (v : Byte) : (s.loadX v).a = s.a := rfl
@[simp] theorem loadX_x (s : State) (v : Byte) : (s.loadX v).x = v := rfl
@[simp] theorem loadX_y (s : State) (v : Byte) : (s.loadX v).y = s.y := rfl
@[simp] theorem loadX_sp (s : State) (v : Byte) : (s.loadX v).sp = s.sp := rfl
@[simp] theorem loadX_pc (s : State) (v : Byte) : (s.loadX v).pc = s.pc := rfl
@[simp] theorem loadX_p (s : State) (v : Byte) : (s.loadX v).p = s.p.setNZ v := rfl
@[simp] theorem loadX_nmiPending (s : State) (v : Byte) : (s.loadX v).nmiPending = s.nmiPending := rfl
@[simp] theorem loadX_irqPending (s : State) (v : Byte) : (s.loadX v).irqPending = s.irqPending := rfl
@[simp] theorem loadX_cycles (s : State) (v : Byte) : (s.loadX v).cycles = s.cycles := rfl
@[simp] theorem loadX_ram (s : State) (v : Byte) : (s.loadX v).ram = s.ram := rfl
@[simp] theorem loadX_portDDR (s : State) (v : Byte) : (s.loadX v).portDDR = s.portDDR := rfl
@[simp] theorem loadX_portDATA (s : State) (v : Byte) : (s.loadX v).portDATA = s.portDATA := rfl
@[simp] theorem loadX_halted (s : State) (v : Byte) : (s.loadX v).halted = s.halted := rfl
@[simp] theorem loadX_lastWasService (s : State) (v : Byte) : (s.loadX v).lastWasService = s.lastWasService := rfl
@[simp] theorem loadX_iAtLastBoundary (s : State) (v : Byte) : (s.loadX v).iAtLastBoundary = s.iAtLastBoundary := rfl
@[simp] theorem loadX_lastWasMaskOp (s : State) (v : Byte) : (s.loadX v).lastWasMaskOp = s.lastWasMaskOp := rfl
@[simp] theorem loadX_draws (s : State) (v : Byte) : (s.loadX v).draws = s.draws := rfl
@[simp] theorem loadX_ioLog (s : State) (v : Byte) : (s.loadX v).ioLog = s.ioLog := rfl
@[simp] theorem loadX_cfg (s : State) (v : Byte) : (s.loadX v).cfg = s.cfg := rfl

/-! ### `loadY` -/

@[simp] theorem loadY_a (s : State) (v : Byte) : (s.loadY v).a = s.a := rfl
@[simp] theorem loadY_x (s : State) (v : Byte) : (s.loadY v).x = s.x := rfl
@[simp] theorem loadY_y (s : State) (v : Byte) : (s.loadY v).y = v := rfl
@[simp] theorem loadY_sp (s : State) (v : Byte) : (s.loadY v).sp = s.sp := rfl
@[simp] theorem loadY_pc (s : State) (v : Byte) : (s.loadY v).pc = s.pc := rfl
@[simp] theorem loadY_p (s : State) (v : Byte) : (s.loadY v).p = s.p.setNZ v := rfl
@[simp] theorem loadY_nmiPending (s : State) (v : Byte) : (s.loadY v).nmiPending = s.nmiPending := rfl
@[simp] theorem loadY_irqPending (s : State) (v : Byte) : (s.loadY v).irqPending = s.irqPending := rfl
@[simp] theorem loadY_cycles (s : State) (v : Byte) : (s.loadY v).cycles = s.cycles := rfl
@[simp] theorem loadY_ram (s : State) (v : Byte) : (s.loadY v).ram = s.ram := rfl
@[simp] theorem loadY_portDDR (s : State) (v : Byte) : (s.loadY v).portDDR = s.portDDR := rfl
@[simp] theorem loadY_portDATA (s : State) (v : Byte) : (s.loadY v).portDATA = s.portDATA := rfl
@[simp] theorem loadY_halted (s : State) (v : Byte) : (s.loadY v).halted = s.halted := rfl
@[simp] theorem loadY_lastWasService (s : State) (v : Byte) : (s.loadY v).lastWasService = s.lastWasService := rfl
@[simp] theorem loadY_iAtLastBoundary (s : State) (v : Byte) : (s.loadY v).iAtLastBoundary = s.iAtLastBoundary := rfl
@[simp] theorem loadY_lastWasMaskOp (s : State) (v : Byte) : (s.loadY v).lastWasMaskOp = s.lastWasMaskOp := rfl
@[simp] theorem loadY_draws (s : State) (v : Byte) : (s.loadY v).draws = s.draws := rfl
@[simp] theorem loadY_ioLog (s : State) (v : Byte) : (s.loadY v).ioLog = s.ioLog := rfl
@[simp] theorem loadY_cfg (s : State) (v : Byte) : (s.loadY v).cfg = s.cfg := rfl

/-! ### `setAP` -/

@[simp] theorem setAP_a (s : State) (r : Byte × Flags) : (s.setAP r).a = r.1 := rfl
@[simp] theorem setAP_x (s : State) (r : Byte × Flags) : (s.setAP r).x = s.x := rfl
@[simp] theorem setAP_y (s : State) (r : Byte × Flags) : (s.setAP r).y = s.y := rfl
@[simp] theorem setAP_sp (s : State) (r : Byte × Flags) : (s.setAP r).sp = s.sp := rfl
@[simp] theorem setAP_pc (s : State) (r : Byte × Flags) : (s.setAP r).pc = s.pc := rfl
@[simp] theorem setAP_p (s : State) (r : Byte × Flags) : (s.setAP r).p = r.2 := rfl
@[simp] theorem setAP_nmiPending (s : State) (r : Byte × Flags) : (s.setAP r).nmiPending = s.nmiPending := rfl
@[simp] theorem setAP_irqPending (s : State) (r : Byte × Flags) : (s.setAP r).irqPending = s.irqPending := rfl
@[simp] theorem setAP_cycles (s : State) (r : Byte × Flags) : (s.setAP r).cycles = s.cycles := rfl
@[simp] theorem setAP_ram (s : State) (r : Byte × Flags) : (s.setAP r).ram = s.ram := rfl
@[simp] theorem setAP_portDDR (s : State) (r : Byte × Flags) : (s.setAP r).portDDR = s.portDDR := rfl
@[simp] theorem setAP_portDATA (s : State) (r : Byte × Flags) : (s.setAP r).portDATA = s.portDATA := rfl
@[simp] theorem setAP_halted (s : State) (r : Byte × Flags) : (s.setAP r).halted = s.halted := rfl
@[simp] theorem setAP_lastWasService (s : State) (r : Byte × Flags) : (s.setAP r).lastWasService = s.lastWasService := rfl
@[simp] theorem setAP_iAtLastBoundary (s : State) (r : Byte × Flags) : (s.setAP r).iAtLastBoundary = s.iAtLastBoundary := rfl
@[simp] theorem setAP_lastWasMaskOp (s : State) (r : Byte × Flags) : (s.setAP r).lastWasMaskOp = s.lastWasMaskOp := rfl
@[simp] theorem setAP_draws (s : State) (r : Byte × Flags) : (s.setAP r).draws = s.draws := rfl
@[simp] theorem setAP_ioLog (s : State) (r : Byte × Flags) : (s.setAP r).ioLog = s.ioLog := rfl
@[simp] theorem setAP_cfg (s : State) (r : Byte × Flags) : (s.setAP r).cfg = s.cfg := rfl

/-! ### `setP` -/

@[simp] theorem setP_a (s : State) (p : Flags) : (s.setP p).a = s.a := rfl
@[simp] theorem setP_x (s : State) (p : Flags) : (s.setP p).x = s.x := rfl
@[simp] theorem setP_y (s : State) (p : Flags) : (s.setP p).y = s.y := rfl
@[simp] theorem setP_sp (s : State) (p : Flags) : (s.setP p).sp = s.sp := rfl
@[simp] theorem setP_pc (s : State) (p : Flags) : (s.setP p).pc = s.pc := rfl
@[simp] theorem setP_p (s : State) (p : Flags) : (s.setP p).p = p := rfl
@[simp] theorem setP_nmiPending (s : State) (p : Flags) : (s.setP p).nmiPending = s.nmiPending := rfl
@[simp] theorem setP_irqPending (s : State) (p : Flags) : (s.setP p).irqPending = s.irqPending := rfl
@[simp] theorem setP_cycles (s : State) (p : Flags) : (s.setP p).cycles = s.cycles := rfl
@[simp] theorem setP_ram (s : State) (p : Flags) : (s.setP p).ram = s.ram := rfl
@[simp] theorem setP_portDDR (s : State) (p : Flags) : (s.setP p).portDDR = s.portDDR := rfl
@[simp] theorem setP_portDATA (s : State) (p : Flags) : (s.setP p).portDATA = s.portDATA := rfl
@[simp] theorem setP_halted (s : State) (p : Flags) : (s.setP p).halted = s.halted := rfl
@[simp] theorem setP_lastWasService (s : State) (p : Flags) : (s.setP p).lastWasService = s.lastWasService := rfl
@[simp] theorem setP_iAtLastBoundary (s : State) (p : Flags) : (s.setP p).iAtLastBoundary = s.iAtLastBoundary := rfl
@[simp] theorem setP_lastWasMaskOp (s : State) (p : Flags) : (s.setP p).lastWasMaskOp = s.lastWasMaskOp := rfl
@[simp] theorem setP_draws (s : State) (p : Flags) : (s.setP p).draws = s.draws := rfl
@[simp] theorem setP_ioLog (s : State) (p : Flags) : (s.setP p).ioLog = s.ioLog := rfl
@[simp] theorem setP_cfg (s : State) (p : Flags) : (s.setP p).cfg = s.cfg := rfl

/-! ### `retire` -/

@[simp] theorem retire_a (s : State) (len cost : Nat) : (s.retire len cost).a = s.a := rfl
@[simp] theorem retire_x (s : State) (len cost : Nat) : (s.retire len cost).x = s.x := rfl
@[simp] theorem retire_y (s : State) (len cost : Nat) : (s.retire len cost).y = s.y := rfl
@[simp] theorem retire_sp (s : State) (len cost : Nat) : (s.retire len cost).sp = s.sp := rfl
@[simp] theorem retire_pc (s : State) (len cost : Nat) : (s.retire len cost).pc = s.pc + BitVec.ofNat 16 len := rfl
@[simp] theorem retire_p (s : State) (len cost : Nat) : (s.retire len cost).p = s.p := rfl
@[simp] theorem retire_nmiPending (s : State) (len cost : Nat) : (s.retire len cost).nmiPending = s.nmiPending := rfl
@[simp] theorem retire_irqPending (s : State) (len cost : Nat) : (s.retire len cost).irqPending = s.irqPending := rfl
@[simp] theorem retire_cycles (s : State) (len cost : Nat) : (s.retire len cost).cycles = s.cycles + cost := rfl
@[simp] theorem retire_ram (s : State) (len cost : Nat) : (s.retire len cost).ram = s.ram := rfl
@[simp] theorem retire_portDDR (s : State) (len cost : Nat) : (s.retire len cost).portDDR = s.portDDR := rfl
@[simp] theorem retire_portDATA (s : State) (len cost : Nat) : (s.retire len cost).portDATA = s.portDATA := rfl
@[simp] theorem retire_halted (s : State) (len cost : Nat) : (s.retire len cost).halted = s.halted := rfl
@[simp] theorem retire_lastWasService (s : State) (len cost : Nat) : (s.retire len cost).lastWasService = s.lastWasService := rfl
@[simp] theorem retire_iAtLastBoundary (s : State) (len cost : Nat) : (s.retire len cost).iAtLastBoundary = s.iAtLastBoundary := rfl
@[simp] theorem retire_lastWasMaskOp (s : State) (len cost : Nat) : (s.retire len cost).lastWasMaskOp = s.lastWasMaskOp := rfl
@[simp] theorem retire_draws (s : State) (len cost : Nat) : (s.retire len cost).draws = s.draws := rfl
@[simp] theorem retire_ioLog (s : State) (len cost : Nat) : (s.retire len cost).ioLog = s.ioLog := rfl
@[simp] theorem retire_cfg (s : State) (len cost : Nat) : (s.retire len cost).cfg = s.cfg := rfl

/-! ### `jumpTo` -/

@[simp] theorem jumpTo_a (s : State) (target : Addr) (cost : Nat) : (s.jumpTo target cost).a = s.a := rfl
@[simp] theorem jumpTo_x (s : State) (target : Addr) (cost : Nat) : (s.jumpTo target cost).x = s.x := rfl
@[simp] theorem jumpTo_y (s : State) (target : Addr) (cost : Nat) : (s.jumpTo target cost).y = s.y := rfl
@[simp] theorem jumpTo_sp (s : State) (target : Addr) (cost : Nat) : (s.jumpTo target cost).sp = s.sp := rfl
@[simp] theorem jumpTo_pc (s : State) (target : Addr) (cost : Nat) : (s.jumpTo target cost).pc = target := rfl
@[simp] theorem jumpTo_p (s : State) (target : Addr) (cost : Nat) : (s.jumpTo target cost).p = s.p := rfl
@[simp] theorem jumpTo_nmiPending (s : State) (target : Addr) (cost : Nat) : (s.jumpTo target cost).nmiPending = s.nmiPending := rfl
@[simp] theorem jumpTo_irqPending (s : State) (target : Addr) (cost : Nat) : (s.jumpTo target cost).irqPending = s.irqPending := rfl
@[simp] theorem jumpTo_cycles (s : State) (target : Addr) (cost : Nat) : (s.jumpTo target cost).cycles = s.cycles + cost := rfl
@[simp] theorem jumpTo_ram (s : State) (target : Addr) (cost : Nat) : (s.jumpTo target cost).ram = s.ram := rfl
@[simp] theorem jumpTo_portDDR (s : State) (target : Addr) (cost : Nat) : (s.jumpTo target cost).portDDR = s.portDDR := rfl
@[simp] theorem jumpTo_portDATA (s : State) (target : Addr) (cost : Nat) : (s.jumpTo target cost).portDATA = s.portDATA := rfl
@[simp] theorem jumpTo_halted (s : State) (target : Addr) (cost : Nat) : (s.jumpTo target cost).halted = s.halted := rfl
@[simp] theorem jumpTo_lastWasService (s : State) (target : Addr) (cost : Nat) : (s.jumpTo target cost).lastWasService = s.lastWasService := rfl
@[simp] theorem jumpTo_iAtLastBoundary (s : State) (target : Addr) (cost : Nat) : (s.jumpTo target cost).iAtLastBoundary = s.iAtLastBoundary := rfl
@[simp] theorem jumpTo_lastWasMaskOp (s : State) (target : Addr) (cost : Nat) : (s.jumpTo target cost).lastWasMaskOp = s.lastWasMaskOp := rfl
@[simp] theorem jumpTo_draws (s : State) (target : Addr) (cost : Nat) : (s.jumpTo target cost).draws = s.draws := rfl
@[simp] theorem jumpTo_ioLog (s : State) (target : Addr) (cost : Nat) : (s.jumpTo target cost).ioLog = s.ioLog := rfl
@[simp] theorem jumpTo_cfg (s : State) (target : Addr) (cost : Nat) : (s.jumpTo target cost).cfg = s.cfg := rfl

/-! ### `push` -/

@[simp] theorem push_a (s : State) (v : Byte) : (s.push v).a = s.a := rfl
@[simp] theorem push_x (s : State) (v : Byte) : (s.push v).x = s.x := rfl
@[simp] theorem push_y (s : State) (v : Byte) : (s.push v).y = s.y := rfl
@[simp] theorem push_sp (s : State) (v : Byte) : (s.push v).sp = s.sp - 1#8 := rfl
@[simp] theorem push_pc (s : State) (v : Byte) : (s.push v).pc = s.pc := rfl
@[simp] theorem push_p (s : State) (v : Byte) : (s.push v).p = s.p := rfl
@[simp] theorem push_nmiPending (s : State) (v : Byte) : (s.push v).nmiPending = s.nmiPending := rfl
@[simp] theorem push_irqPending (s : State) (v : Byte) : (s.push v).irqPending = s.irqPending := rfl
@[simp] theorem push_cycles (s : State) (v : Byte) : (s.push v).cycles = s.cycles := rfl
@[simp] theorem push_ram (s : State) (v : Byte) : (s.push v).ram = s.ramAfterWrite (stackAddr s.sp) v := rfl
@[simp] theorem push_halted (s : State) (v : Byte) : (s.push v).halted = s.halted := rfl
@[simp] theorem push_lastWasService (s : State) (v : Byte) : (s.push v).lastWasService = s.lastWasService := rfl
@[simp] theorem push_iAtLastBoundary (s : State) (v : Byte) : (s.push v).iAtLastBoundary = s.iAtLastBoundary := rfl
@[simp] theorem push_lastWasMaskOp (s : State) (v : Byte) : (s.push v).lastWasMaskOp = s.lastWasMaskOp := rfl
@[simp] theorem push_draws (s : State) (v : Byte) : (s.push v).draws = s.draws := rfl
@[simp] theorem push_ioLog (s : State) (v : Byte) : (s.push v).ioLog = s.ioLogAfterWrite (stackAddr s.sp) v := rfl
@[simp] theorem push_cfg (s : State) (v : Byte) : (s.push v).cfg = s.cfg := rfl

/-! ### `afterPull` -/

@[simp] theorem afterPull_a (s : State) : (s.afterPull).a = s.a := rfl
@[simp] theorem afterPull_x (s : State) : (s.afterPull).x = s.x := rfl
@[simp] theorem afterPull_y (s : State) : (s.afterPull).y = s.y := rfl
@[simp] theorem afterPull_sp (s : State) : (s.afterPull).sp = s.sp + 1#8 := rfl
@[simp] theorem afterPull_pc (s : State) : (s.afterPull).pc = s.pc := rfl
@[simp] theorem afterPull_p (s : State) : (s.afterPull).p = s.p := rfl
@[simp] theorem afterPull_nmiPending (s : State) : (s.afterPull).nmiPending = s.nmiPending := rfl
@[simp] theorem afterPull_irqPending (s : State) : (s.afterPull).irqPending = s.irqPending := rfl
@[simp] theorem afterPull_cycles (s : State) : (s.afterPull).cycles = s.cycles := rfl
@[simp] theorem afterPull_ram (s : State) : (s.afterPull).ram = s.ram := rfl
@[simp] theorem afterPull_portDDR (s : State) : (s.afterPull).portDDR = s.portDDR := rfl
@[simp] theorem afterPull_portDATA (s : State) : (s.afterPull).portDATA = s.portDATA := rfl
@[simp] theorem afterPull_halted (s : State) : (s.afterPull).halted = s.halted := rfl
@[simp] theorem afterPull_lastWasService (s : State) : (s.afterPull).lastWasService = s.lastWasService := rfl
@[simp] theorem afterPull_iAtLastBoundary (s : State) : (s.afterPull).iAtLastBoundary = s.iAtLastBoundary := rfl
@[simp] theorem afterPull_lastWasMaskOp (s : State) : (s.afterPull).lastWasMaskOp = s.lastWasMaskOp := rfl
@[simp] theorem afterPull_draws (s : State) : (s.afterPull).draws = s.drawsAfterRead (stackAddr (s.sp + 1#8)) := rfl
@[simp] theorem afterPull_ioLog (s : State) : (s.afterPull).ioLog = s.ioLogAfterRead (stackAddr (s.sp + 1#8)) := rfl
@[simp] theorem afterPull_cfg (s : State) : (s.afterPull).cfg = s.cfg := rfl

/-! ### `pushWord` -/

@[simp] theorem pushWord_a (s : State) (w : Addr) : (s.pushWord w).a = s.a := rfl
@[simp] theorem pushWord_x (s : State) (w : Addr) : (s.pushWord w).x = s.x := rfl
@[simp] theorem pushWord_y (s : State) (w : Addr) : (s.pushWord w).y = s.y := rfl
@[simp] theorem pushWord_sp (s : State) (w : Addr) : (s.pushWord w).sp = s.sp - 1#8 - 1#8 := rfl
@[simp] theorem pushWord_pc (s : State) (w : Addr) : (s.pushWord w).pc = s.pc := rfl
@[simp] theorem pushWord_p (s : State) (w : Addr) : (s.pushWord w).p = s.p := rfl
@[simp] theorem pushWord_nmiPending (s : State) (w : Addr) : (s.pushWord w).nmiPending = s.nmiPending := rfl
@[simp] theorem pushWord_irqPending (s : State) (w : Addr) : (s.pushWord w).irqPending = s.irqPending := rfl
@[simp] theorem pushWord_cycles (s : State) (w : Addr) : (s.pushWord w).cycles = s.cycles := rfl
@[simp] theorem pushWord_ram (s : State) (w : Addr) : (s.pushWord w).ram = (s.push (hiByte w)).ramAfterWrite (stackAddr (s.sp - 1#8)) (loByte w) := rfl
@[simp] theorem pushWord_halted (s : State) (w : Addr) : (s.pushWord w).halted = s.halted := rfl
@[simp] theorem pushWord_lastWasService (s : State) (w : Addr) : (s.pushWord w).lastWasService = s.lastWasService := rfl
@[simp] theorem pushWord_iAtLastBoundary (s : State) (w : Addr) : (s.pushWord w).iAtLastBoundary = s.iAtLastBoundary := rfl
@[simp] theorem pushWord_lastWasMaskOp (s : State) (w : Addr) : (s.pushWord w).lastWasMaskOp = s.lastWasMaskOp := rfl
@[simp] theorem pushWord_draws (s : State) (w : Addr) : (s.pushWord w).draws = s.draws := rfl
@[simp] theorem pushWord_ioLog (s : State) (w : Addr) : (s.pushWord w).ioLog = (s.push (hiByte w)).ioLogAfterWrite (stackAddr (s.sp - 1#8)) (loByte w) := rfl
@[simp] theorem pushWord_cfg (s : State) (w : Addr) : (s.pushWord w).cfg = s.cfg := rfl

/-! ### `read16`: the state after it -/

@[simp] theorem read16_a (s : State) (a : Addr) : (s.read16 a).2.a = s.a := rfl
@[simp] theorem read16_x (s : State) (a : Addr) : (s.read16 a).2.x = s.x := rfl
@[simp] theorem read16_y (s : State) (a : Addr) : (s.read16 a).2.y = s.y := rfl
@[simp] theorem read16_sp (s : State) (a : Addr) : (s.read16 a).2.sp = s.sp := rfl
@[simp] theorem read16_pc (s : State) (a : Addr) : (s.read16 a).2.pc = s.pc := rfl
@[simp] theorem read16_p (s : State) (a : Addr) : (s.read16 a).2.p = s.p := rfl
@[simp] theorem read16_nmiPending (s : State) (a : Addr) : (s.read16 a).2.nmiPending = s.nmiPending := rfl
@[simp] theorem read16_irqPending (s : State) (a : Addr) : (s.read16 a).2.irqPending = s.irqPending := rfl
@[simp] theorem read16_cycles (s : State) (a : Addr) : (s.read16 a).2.cycles = s.cycles := rfl
@[simp] theorem read16_ram (s : State) (a : Addr) : (s.read16 a).2.ram = s.ram := rfl
@[simp] theorem read16_portDDR (s : State) (a : Addr) : (s.read16 a).2.portDDR = s.portDDR := rfl
@[simp] theorem read16_portDATA (s : State) (a : Addr) : (s.read16 a).2.portDATA = s.portDATA := rfl
@[simp] theorem read16_halted (s : State) (a : Addr) : (s.read16 a).2.halted = s.halted := rfl
@[simp] theorem read16_lastWasService (s : State) (a : Addr) : (s.read16 a).2.lastWasService = s.lastWasService := rfl
@[simp] theorem read16_iAtLastBoundary (s : State) (a : Addr) : (s.read16 a).2.iAtLastBoundary = s.iAtLastBoundary := rfl
@[simp] theorem read16_lastWasMaskOp (s : State) (a : Addr) : (s.read16 a).2.lastWasMaskOp = s.lastWasMaskOp := rfl
@[simp] theorem read16_cfg (s : State) (a : Addr) : (s.read16 a).2.cfg = s.cfg := rfl

/-! ### `read16zp`: the state after it -/

@[simp] theorem read16zp_a (s : State) (z : Byte) : (s.read16zp z).2.a = s.a := rfl
@[simp] theorem read16zp_x (s : State) (z : Byte) : (s.read16zp z).2.x = s.x := rfl
@[simp] theorem read16zp_y (s : State) (z : Byte) : (s.read16zp z).2.y = s.y := rfl
@[simp] theorem read16zp_sp (s : State) (z : Byte) : (s.read16zp z).2.sp = s.sp := rfl
@[simp] theorem read16zp_pc (s : State) (z : Byte) : (s.read16zp z).2.pc = s.pc := rfl
@[simp] theorem read16zp_p (s : State) (z : Byte) : (s.read16zp z).2.p = s.p := rfl
@[simp] theorem read16zp_nmiPending (s : State) (z : Byte) : (s.read16zp z).2.nmiPending = s.nmiPending := rfl
@[simp] theorem read16zp_irqPending (s : State) (z : Byte) : (s.read16zp z).2.irqPending = s.irqPending := rfl
@[simp] theorem read16zp_cycles (s : State) (z : Byte) : (s.read16zp z).2.cycles = s.cycles := rfl
@[simp] theorem read16zp_ram (s : State) (z : Byte) : (s.read16zp z).2.ram = s.ram := rfl
@[simp] theorem read16zp_portDDR (s : State) (z : Byte) : (s.read16zp z).2.portDDR = s.portDDR := rfl
@[simp] theorem read16zp_portDATA (s : State) (z : Byte) : (s.read16zp z).2.portDATA = s.portDATA := rfl
@[simp] theorem read16zp_halted (s : State) (z : Byte) : (s.read16zp z).2.halted = s.halted := rfl
@[simp] theorem read16zp_lastWasService (s : State) (z : Byte) : (s.read16zp z).2.lastWasService = s.lastWasService := rfl
@[simp] theorem read16zp_iAtLastBoundary (s : State) (z : Byte) : (s.read16zp z).2.iAtLastBoundary = s.iAtLastBoundary := rfl
@[simp] theorem read16zp_lastWasMaskOp (s : State) (z : Byte) : (s.read16zp z).2.lastWasMaskOp = s.lastWasMaskOp := rfl
@[simp] theorem read16zp_cfg (s : State) (z : Byte) : (s.read16zp z).2.cfg = s.cfg := rfl

/-! ### `read16pw`: the state after it -/

@[simp] theorem read16pw_a (s : State) (a : Addr) : (s.read16pw a).2.a = s.a := rfl
@[simp] theorem read16pw_x (s : State) (a : Addr) : (s.read16pw a).2.x = s.x := rfl
@[simp] theorem read16pw_y (s : State) (a : Addr) : (s.read16pw a).2.y = s.y := rfl
@[simp] theorem read16pw_sp (s : State) (a : Addr) : (s.read16pw a).2.sp = s.sp := rfl
@[simp] theorem read16pw_pc (s : State) (a : Addr) : (s.read16pw a).2.pc = s.pc := rfl
@[simp] theorem read16pw_p (s : State) (a : Addr) : (s.read16pw a).2.p = s.p := rfl
@[simp] theorem read16pw_nmiPending (s : State) (a : Addr) : (s.read16pw a).2.nmiPending = s.nmiPending := rfl
@[simp] theorem read16pw_irqPending (s : State) (a : Addr) : (s.read16pw a).2.irqPending = s.irqPending := rfl
@[simp] theorem read16pw_cycles (s : State) (a : Addr) : (s.read16pw a).2.cycles = s.cycles := rfl
@[simp] theorem read16pw_ram (s : State) (a : Addr) : (s.read16pw a).2.ram = s.ram := rfl
@[simp] theorem read16pw_portDDR (s : State) (a : Addr) : (s.read16pw a).2.portDDR = s.portDDR := rfl
@[simp] theorem read16pw_portDATA (s : State) (a : Addr) : (s.read16pw a).2.portDATA = s.portDATA := rfl
@[simp] theorem read16pw_halted (s : State) (a : Addr) : (s.read16pw a).2.halted = s.halted := rfl
@[simp] theorem read16pw_lastWasService (s : State) (a : Addr) : (s.read16pw a).2.lastWasService = s.lastWasService := rfl
@[simp] theorem read16pw_iAtLastBoundary (s : State) (a : Addr) : (s.read16pw a).2.iAtLastBoundary = s.iAtLastBoundary := rfl
@[simp] theorem read16pw_lastWasMaskOp (s : State) (a : Addr) : (s.read16pw a).2.lastWasMaskOp = s.lastWasMaskOp := rfl
@[simp] theorem read16pw_cfg (s : State) (a : Addr) : (s.read16pw a).2.cfg = s.cfg := rfl

/-! ### `pullWord`: the state after it -/

@[simp] theorem pullWord_a (s : State) : s.pullWord.2.a = s.a := rfl
@[simp] theorem pullWord_x (s : State) : s.pullWord.2.x = s.x := rfl
@[simp] theorem pullWord_y (s : State) : s.pullWord.2.y = s.y := rfl
@[simp] theorem pullWord_sp (s : State) : s.pullWord.2.sp = s.sp + 1#8 + 1#8 := rfl
@[simp] theorem pullWord_pc (s : State) : s.pullWord.2.pc = s.pc := rfl
@[simp] theorem pullWord_p (s : State) : s.pullWord.2.p = s.p := rfl
@[simp] theorem pullWord_nmiPending (s : State) : s.pullWord.2.nmiPending = s.nmiPending := rfl
@[simp] theorem pullWord_irqPending (s : State) : s.pullWord.2.irqPending = s.irqPending := rfl
@[simp] theorem pullWord_cycles (s : State) : s.pullWord.2.cycles = s.cycles := rfl
@[simp] theorem pullWord_ram (s : State) : s.pullWord.2.ram = s.ram := rfl
@[simp] theorem pullWord_portDDR (s : State) : s.pullWord.2.portDDR = s.portDDR := rfl
@[simp] theorem pullWord_portDATA (s : State) : s.pullWord.2.portDATA = s.portDATA := rfl
@[simp] theorem pullWord_halted (s : State) : s.pullWord.2.halted = s.halted := rfl
@[simp] theorem pullWord_lastWasService (s : State) : s.pullWord.2.lastWasService = s.lastWasService := rfl
@[simp] theorem pullWord_iAtLastBoundary (s : State) : s.pullWord.2.iAtLastBoundary = s.iAtLastBoundary := rfl
@[simp] theorem pullWord_lastWasMaskOp (s : State) : s.pullWord.2.lastWasMaskOp = s.lastWasMaskOp := rfl
@[simp] theorem pullWord_cfg (s : State) : s.pullWord.2.cfg = s.cfg := rfl

/-! ### `takeException` -/

@[simp] theorem takeException_a (s : State) (ret : Addr) (b : Bool) (vector : Addr) : (s.takeException ret b vector).a = s.a := by simp [State.takeException]
@[simp] theorem takeException_x (s : State) (ret : Addr) (b : Bool) (vector : Addr) : (s.takeException ret b vector).x = s.x := by simp [State.takeException]
@[simp] theorem takeException_y (s : State) (ret : Addr) (b : Bool) (vector : Addr) : (s.takeException ret b vector).y = s.y := by simp [State.takeException]
@[simp] theorem takeException_sp (s : State) (ret : Addr) (b : Bool) (vector : Addr) : (s.takeException ret b vector).sp = s.sp - 1#8 - 1#8 - 1#8 := by simp [State.takeException]
@[simp] theorem takeException_p (s : State) (ret : Addr) (b : Bool) (vector : Addr) : (s.takeException ret b vector).p = { s.p with i := true } := by simp [State.takeException]
@[simp] theorem takeException_nmiPending (s : State) (ret : Addr) (b : Bool) (vector : Addr) : (s.takeException ret b vector).nmiPending = s.nmiPending := by simp [State.takeException]
@[simp] theorem takeException_irqPending (s : State) (ret : Addr) (b : Bool) (vector : Addr) : (s.takeException ret b vector).irqPending = s.irqPending := by simp [State.takeException]
@[simp] theorem takeException_cycles (s : State) (ret : Addr) (b : Bool) (vector : Addr) : (s.takeException ret b vector).cycles = s.cycles := by simp [State.takeException]
@[simp] theorem takeException_ram (s : State) (ret : Addr) (b : Bool) (vector : Addr) : (s.takeException ret b vector).ram = ((s.pushWord ret).push (s.p.pack b)).ram := by simp [State.takeException]
@[simp] theorem takeException_halted (s : State) (ret : Addr) (b : Bool) (vector : Addr) : (s.takeException ret b vector).halted = s.halted := by simp [State.takeException]
@[simp] theorem takeException_lastWasService (s : State) (ret : Addr) (b : Bool) (vector : Addr) : (s.takeException ret b vector).lastWasService = s.lastWasService := by simp [State.takeException]
@[simp] theorem takeException_iAtLastBoundary (s : State) (ret : Addr) (b : Bool) (vector : Addr) : (s.takeException ret b vector).iAtLastBoundary = s.iAtLastBoundary := by simp [State.takeException]
@[simp] theorem takeException_lastWasMaskOp (s : State) (ret : Addr) (b : Bool) (vector : Addr) : (s.takeException ret b vector).lastWasMaskOp = s.lastWasMaskOp := by simp [State.takeException]
@[simp] theorem takeException_cfg (s : State) (ret : Addr) (b : Bool) (vector : Addr) : (s.takeException ret b vector).cfg = s.cfg := by simp [State.takeException]

/-! ### `returnFromException` -/

@[simp] theorem returnFromException_a (s : State) : (s.returnFromException).a = s.a := by simp [State.returnFromException]
@[simp] theorem returnFromException_x (s : State) : (s.returnFromException).x = s.x := by simp [State.returnFromException]
@[simp] theorem returnFromException_y (s : State) : (s.returnFromException).y = s.y := by simp [State.returnFromException]
@[simp] theorem returnFromException_sp (s : State) : (s.returnFromException).sp = s.sp + 1#8 + 1#8 + 1#8 := by simp [State.returnFromException]
@[simp] theorem returnFromException_p (s : State) : (s.returnFromException).p = unpackFlags s.pullByte := by simp [State.returnFromException]
@[simp] theorem returnFromException_nmiPending (s : State) : (s.returnFromException).nmiPending = s.nmiPending := by simp [State.returnFromException]
@[simp] theorem returnFromException_irqPending (s : State) : (s.returnFromException).irqPending = s.irqPending := by simp [State.returnFromException]
@[simp] theorem returnFromException_cycles (s : State) : (s.returnFromException).cycles = s.cycles := by simp [State.returnFromException]
@[simp] theorem returnFromException_ram (s : State) : (s.returnFromException).ram = s.ram := by simp [State.returnFromException]
@[simp] theorem returnFromException_portDDR (s : State) : (s.returnFromException).portDDR = s.portDDR := by simp [State.returnFromException]
@[simp] theorem returnFromException_portDATA (s : State) : (s.returnFromException).portDATA = s.portDATA := by simp [State.returnFromException]
@[simp] theorem returnFromException_halted (s : State) : (s.returnFromException).halted = s.halted := by simp [State.returnFromException]
@[simp] theorem returnFromException_lastWasService (s : State) : (s.returnFromException).lastWasService = s.lastWasService := by simp [State.returnFromException]
@[simp] theorem returnFromException_iAtLastBoundary (s : State) : (s.returnFromException).iAtLastBoundary = s.iAtLastBoundary := by simp [State.returnFromException]
@[simp] theorem returnFromException_lastWasMaskOp (s : State) : (s.returnFromException).lastWasMaskOp = s.lastWasMaskOp := by simp [State.returnFromException]
@[simp] theorem returnFromException_cfg (s : State) : (s.returnFromException).cfg = s.cfg := by simp [State.returnFromException]

/-! ### `commit` -/

@[simp] theorem commit_a (s : State) (i : Instr) (i0 : Bool) : (s.commit i i0).a = s.a := rfl
@[simp] theorem commit_x (s : State) (i : Instr) (i0 : Bool) : (s.commit i i0).x = s.x := rfl
@[simp] theorem commit_y (s : State) (i : Instr) (i0 : Bool) : (s.commit i i0).y = s.y := rfl
@[simp] theorem commit_sp (s : State) (i : Instr) (i0 : Bool) : (s.commit i i0).sp = s.sp := rfl
@[simp] theorem commit_pc (s : State) (i : Instr) (i0 : Bool) : (s.commit i i0).pc = s.pc := rfl
@[simp] theorem commit_p (s : State) (i : Instr) (i0 : Bool) : (s.commit i i0).p = s.p := rfl
@[simp] theorem commit_nmiPending (s : State) (i : Instr) (i0 : Bool) : (s.commit i i0).nmiPending = s.nmiPending := rfl
@[simp] theorem commit_irqPending (s : State) (i : Instr) (i0 : Bool) : (s.commit i i0).irqPending = s.irqPending := rfl
@[simp] theorem commit_cycles (s : State) (i : Instr) (i0 : Bool) : (s.commit i i0).cycles = s.cycles := rfl
@[simp] theorem commit_ram (s : State) (i : Instr) (i0 : Bool) : (s.commit i i0).ram = s.ram := rfl
@[simp] theorem commit_portDDR (s : State) (i : Instr) (i0 : Bool) : (s.commit i i0).portDDR = s.portDDR := rfl
@[simp] theorem commit_portDATA (s : State) (i : Instr) (i0 : Bool) : (s.commit i i0).portDATA = s.portDATA := rfl
@[simp] theorem commit_halted (s : State) (i : Instr) (i0 : Bool) : (s.commit i i0).halted = s.halted := rfl
@[simp] theorem commit_lastWasService (s : State) (i : Instr) (i0 : Bool) : (s.commit i i0).lastWasService = false := rfl
@[simp] theorem commit_iAtLastBoundary (s : State) (i : Instr) (i0 : Bool) : (s.commit i i0).iAtLastBoundary = i0 := rfl
@[simp] theorem commit_lastWasMaskOp (s : State) (i : Instr) (i0 : Bool) : (s.commit i i0).lastWasMaskOp = isMaskOp i := rfl
@[simp] theorem commit_draws (s : State) (i : Instr) (i0 : Bool) : (s.commit i i0).draws = s.draws := rfl
@[simp] theorem commit_ioLog (s : State) (i : Instr) (i0 : Bool) : (s.commit i i0).ioLog = s.ioLog := rfl
@[simp] theorem commit_cfg (s : State) (i : Instr) (i0 : Bool) : (s.commit i i0).cfg = s.cfg := rfl

/-! ### `resetFields` -/

@[simp] theorem resetFields_a (s : State) (d : ResetDraws) : (s.resetFields d).a = d.a := rfl
@[simp] theorem resetFields_x (s : State) (d : ResetDraws) : (s.resetFields d).x = d.x := rfl
@[simp] theorem resetFields_y (s : State) (d : ResetDraws) : (s.resetFields d).y = d.y := rfl
@[simp] theorem resetFields_sp (s : State) (d : ResetDraws) : (s.resetFields d).sp = 0xFD#8 := rfl
@[simp] theorem resetFields_pc (s : State) (d : ResetDraws) : (s.resetFields d).pc = s.pc := rfl
@[simp] theorem resetFields_p (s : State) (d : ResetDraws) : (s.resetFields d).p = { n := d.n, v := d.v, d := d.d, i := true, z := d.z, c := d.c } := rfl
@[simp] theorem resetFields_nmiPending (s : State) (d : ResetDraws) : (s.resetFields d).nmiPending = false := rfl
@[simp] theorem resetFields_irqPending (s : State) (d : ResetDraws) : (s.resetFields d).irqPending = false := rfl
@[simp] theorem resetFields_cycles (s : State) (d : ResetDraws) : (s.resetFields d).cycles = 0 := rfl
@[simp] theorem resetFields_ram (s : State) (d : ResetDraws) : (s.resetFields d).ram = s.ram := rfl
@[simp] theorem resetFields_portDDR (s : State) (d : ResetDraws) : (s.resetFields d).portDDR = 0x00#8 := rfl
@[simp] theorem resetFields_portDATA (s : State) (d : ResetDraws) : (s.resetFields d).portDATA = s.portDATA := rfl
@[simp] theorem resetFields_halted (s : State) (d : ResetDraws) : (s.resetFields d).halted = none := rfl
@[simp] theorem resetFields_lastWasService (s : State) (d : ResetDraws) : (s.resetFields d).lastWasService = false := rfl
@[simp] theorem resetFields_iAtLastBoundary (s : State) (d : ResetDraws) : (s.resetFields d).iAtLastBoundary = true := rfl
@[simp] theorem resetFields_lastWasMaskOp (s : State) (d : ResetDraws) : (s.resetFields d).lastWasMaskOp = false := rfl
@[simp] theorem resetFields_draws (s : State) (d : ResetDraws) : (s.resetFields d).draws = s.draws := rfl
@[simp] theorem resetFields_ioLog (s : State) (d : ResetDraws) : (s.resetFields d).ioLog = s.ioLog := rfl
@[simp] theorem resetFields_cfg (s : State) (d : ResetDraws) : (s.resetFields d).cfg = s.cfg := rfl

end Sys2Proof.Machine
end

