-- ==== Sys2Proof/Laws/Reads.lean ====
section
/-! SUPPORT. What a bus read can do: nothing but draw a free value and show the device an access. `ReadsOnly s t` says so, and every
operation made of reads keeps it. -/

namespace Sys2Proof.Machine

/-- `t` is `s` after some bus reads: only the model's own `draws` and `ioLog` may differ. -/
def ReadsOnly (s t : State) : Prop := ∃ n l, t = { s with draws := n, ioLog := l }

theorem ReadsOnly.refl (s : State) : ReadsOnly s s := ⟨s.draws, s.ioLog, rfl⟩

theorem ReadsOnly.trans {s t u : State} (h : ReadsOnly s t) (h' : ReadsOnly t u) : ReadsOnly s u := by
  obtain ⟨n, l, rfl⟩ := h
  obtain ⟨n', l', rfl⟩ := h'
  exact ⟨n', l', rfl⟩

theorem readsOnly_afterRead (s : State) (a : Addr) : ReadsOnly s (s.afterRead a) := ⟨_, _, rfl⟩

theorem readsOnly_read16 (s : State) (a : Addr) : ReadsOnly s (s.read16 a).2 := ⟨_, _, rfl⟩

theorem readsOnly_read16zp (s : State) (z : Byte) : ReadsOnly s (s.read16zp z).2 := ⟨_, _, rfl⟩

theorem readsOnly_read16pw (s : State) (a : Addr) : ReadsOnly s (s.read16pw a).2 := ⟨_, _, rfl⟩

theorem readsOnly_resolve (s : State) (m : MemForm) : ReadsOnly s (s.resolve m).st := by
  cases m <;> exact ⟨_, _, rfl⟩

theorem readsOnly_operandState (s : State) (m : MemForm) : ReadsOnly s (s.operandState m) := by
  unfold State.operandState State.readDummy
  split
  · exact readsOnly_resolve s m
  · split
    · exact (readsOnly_resolve s m).trans (readsOnly_afterRead _ _)
    · exact readsOnly_resolve s m

theorem readsOnly_afterOperand (s : State) (m : MemForm) : ReadsOnly s (s.afterOperand m) :=
  (readsOnly_operandState s m).trans (readsOnly_afterRead _ _)

theorem readsOnly_rmwState (s : State) (m : MemForm) : ReadsOnly s (s.rmwState m) := by
  unfold State.rmwState State.writeDummy
  split
  · exact readsOnly_resolve s m
  · split
    · exact (readsOnly_resolve s m).trans (readsOnly_afterRead _ _)
    · exact readsOnly_resolve s m

theorem readsOnly_writeDummy (s : State) (m : MemForm) : ReadsOnly s (s.writeDummy m (s.resolve m)) :=
  readsOnly_rmwState s m

theorem readsOnly_afterRmwRead (s : State) (m : MemForm) : ReadsOnly s (s.afterRmwRead m) :=
  (readsOnly_rmwState s m).trans (readsOnly_afterRead _ _)

/-- Bytes fetched leave everything but the draws and the device's log. -/
theorem readsOnly_fetchBytes (n : Nat) (a : Addr) (s : State) (bs : List Byte) (t : State)
    (h : State.fetchBytes n a s = .next (bs, t)) : ReadsOnly s t := by
  induction n generalizing a s bs t with
  | zero =>
    simp only [State.fetchBytes, Host.Outcome.next.injEq, Prod.mk.injEq] at h
    exact h.2 ▸ ReadsOnly.refl s
  | succ n ih =>
    simp only [State.fetchBytes] at h
    split at h
    · cases h
    · split at h
      · next bs' t' h' =>
        simp only [Host.Outcome.next.injEq, Prod.mk.injEq] at h
        exact h.2 ▸ (readsOnly_afterRead s a).trans (ih _ _ _ _ h')
      · cases h
      · cases h

/-! ### The fields that reads leave -/

theorem ReadsOnly.a_eq {s t : State} (h : ReadsOnly s t) : t.a = s.a := by obtain ⟨_, _, rfl⟩ := h; rfl
theorem ReadsOnly.x_eq {s t : State} (h : ReadsOnly s t) : t.x = s.x := by obtain ⟨_, _, rfl⟩ := h; rfl
theorem ReadsOnly.y_eq {s t : State} (h : ReadsOnly s t) : t.y = s.y := by obtain ⟨_, _, rfl⟩ := h; rfl
theorem ReadsOnly.sp_eq {s t : State} (h : ReadsOnly s t) : t.sp = s.sp := by obtain ⟨_, _, rfl⟩ := h; rfl
theorem ReadsOnly.pc_eq {s t : State} (h : ReadsOnly s t) : t.pc = s.pc := by obtain ⟨_, _, rfl⟩ := h; rfl
theorem ReadsOnly.p_eq {s t : State} (h : ReadsOnly s t) : t.p = s.p := by obtain ⟨_, _, rfl⟩ := h; rfl
theorem ReadsOnly.nmiPending_eq {s t : State} (h : ReadsOnly s t) : t.nmiPending = s.nmiPending := by obtain ⟨_, _, rfl⟩ := h; rfl
theorem ReadsOnly.irqPending_eq {s t : State} (h : ReadsOnly s t) : t.irqPending = s.irqPending := by obtain ⟨_, _, rfl⟩ := h; rfl
theorem ReadsOnly.cycles_eq {s t : State} (h : ReadsOnly s t) : t.cycles = s.cycles := by obtain ⟨_, _, rfl⟩ := h; rfl
theorem ReadsOnly.ram_eq {s t : State} (h : ReadsOnly s t) : t.ram = s.ram := by obtain ⟨_, _, rfl⟩ := h; rfl
theorem ReadsOnly.portDDR_eq {s t : State} (h : ReadsOnly s t) : t.portDDR = s.portDDR := by obtain ⟨_, _, rfl⟩ := h; rfl
theorem ReadsOnly.portDATA_eq {s t : State} (h : ReadsOnly s t) : t.portDATA = s.portDATA := by obtain ⟨_, _, rfl⟩ := h; rfl
theorem ReadsOnly.halted_eq {s t : State} (h : ReadsOnly s t) : t.halted = s.halted := by obtain ⟨_, _, rfl⟩ := h; rfl
theorem ReadsOnly.lastWasService_eq {s t : State} (h : ReadsOnly s t) : t.lastWasService = s.lastWasService := by obtain ⟨_, _, rfl⟩ := h; rfl
theorem ReadsOnly.iAtLastBoundary_eq {s t : State} (h : ReadsOnly s t) : t.iAtLastBoundary = s.iAtLastBoundary := by obtain ⟨_, _, rfl⟩ := h; rfl
theorem ReadsOnly.lastWasMaskOp_eq {s t : State} (h : ReadsOnly s t) : t.lastWasMaskOp = s.lastWasMaskOp := by obtain ⟨_, _, rfl⟩ := h; rfl
theorem ReadsOnly.cfg_eq {s t : State} (h : ReadsOnly s t) : t.cfg = s.cfg := by obtain ⟨_, _, rfl⟩ := h; rfl

/-- What an access selects does not depend on reads made before. -/
theorem ReadsOnly.select_eq {s t : State} (h : ReadsOnly s t) (a : Addr) (d : Dir) : t.select a d = s.select a d := by
  obtain ⟨_, _, rfl⟩ := h; rfl

/-- RAM and ROM answer the same byte after reads. -/
theorem ReadsOnly.peek_eq {s t : State} (h : ReadsOnly s t) (a : Addr)
    (hs : s.select a .read = .ram ∨ s.select a .read = .basic ∨ s.select a .read = .kernal ∨ s.select a .read = .char) :
    t.peek a = s.peek a := by
  unfold State.peek
  rw [h.select_eq]
  obtain ⟨_, _, rfl⟩ := h
  rcases hs with h | h | h | h <;> simp [h]

/-- The check of a port write does not depend on reads made before. -/
theorem ReadsOnly.bankWriteInvalid_eq {s t : State} (h : ReadsOnly s t) (a : Addr) (v : Byte) :
    t.bankWriteInvalid a v = s.bankWriteInvalid a v := by
  obtain ⟨_, _, rfl⟩ := h; rfl

theorem ReadsOnly.bankCfg_eq {s t : State} (h : ReadsOnly s t) : t.bankCfg = s.bankCfg := by
  obtain ⟨_, _, rfl⟩ := h; rfl

/-! ### `operandState` -/

@[simp] theorem operandState_a (s : State) (m : MemForm) : (s.operandState m).a = s.a := (readsOnly_operandState s m).a_eq
@[simp] theorem operandState_x (s : State) (m : MemForm) : (s.operandState m).x = s.x := (readsOnly_operandState s m).x_eq
@[simp] theorem operandState_y (s : State) (m : MemForm) : (s.operandState m).y = s.y := (readsOnly_operandState s m).y_eq
@[simp] theorem operandState_sp (s : State) (m : MemForm) : (s.operandState m).sp = s.sp := (readsOnly_operandState s m).sp_eq
@[simp] theorem operandState_pc (s : State) (m : MemForm) : (s.operandState m).pc = s.pc := (readsOnly_operandState s m).pc_eq
@[simp] theorem operandState_p (s : State) (m : MemForm) : (s.operandState m).p = s.p := (readsOnly_operandState s m).p_eq
@[simp] theorem operandState_nmiPending (s : State) (m : MemForm) : (s.operandState m).nmiPending = s.nmiPending := (readsOnly_operandState s m).nmiPending_eq
@[simp] theorem operandState_irqPending (s : State) (m : MemForm) : (s.operandState m).irqPending = s.irqPending := (readsOnly_operandState s m).irqPending_eq
@[simp] theorem operandState_cycles (s : State) (m : MemForm) : (s.operandState m).cycles = s.cycles := (readsOnly_operandState s m).cycles_eq
@[simp] theorem operandState_ram (s : State) (m : MemForm) : (s.operandState m).ram = s.ram := (readsOnly_operandState s m).ram_eq
@[simp] theorem operandState_portDDR (s : State) (m : MemForm) : (s.operandState m).portDDR = s.portDDR := (readsOnly_operandState s m).portDDR_eq
@[simp] theorem operandState_portDATA (s : State) (m : MemForm) : (s.operandState m).portDATA = s.portDATA := (readsOnly_operandState s m).portDATA_eq
@[simp] theorem operandState_halted (s : State) (m : MemForm) : (s.operandState m).halted = s.halted := (readsOnly_operandState s m).halted_eq
@[simp] theorem operandState_lastWasService (s : State) (m : MemForm) : (s.operandState m).lastWasService = s.lastWasService := (readsOnly_operandState s m).lastWasService_eq
@[simp] theorem operandState_iAtLastBoundary (s : State) (m : MemForm) : (s.operandState m).iAtLastBoundary = s.iAtLastBoundary := (readsOnly_operandState s m).iAtLastBoundary_eq
@[simp] theorem operandState_lastWasMaskOp (s : State) (m : MemForm) : (s.operandState m).lastWasMaskOp = s.lastWasMaskOp := (readsOnly_operandState s m).lastWasMaskOp_eq
@[simp] theorem operandState_cfg (s : State) (m : MemForm) : (s.operandState m).cfg = s.cfg := (readsOnly_operandState s m).cfg_eq

/-! ### `afterOperand` -/

@[simp] theorem afterOperand_a (s : State) (m : MemForm) : (s.afterOperand m).a = s.a := (readsOnly_afterOperand s m).a_eq
@[simp] theorem afterOperand_x (s : State) (m : MemForm) : (s.afterOperand m).x = s.x := (readsOnly_afterOperand s m).x_eq
@[simp] theorem afterOperand_y (s : State) (m : MemForm) : (s.afterOperand m).y = s.y := (readsOnly_afterOperand s m).y_eq
@[simp] theorem afterOperand_sp (s : State) (m : MemForm) : (s.afterOperand m).sp = s.sp := (readsOnly_afterOperand s m).sp_eq
@[simp] theorem afterOperand_pc (s : State) (m : MemForm) : (s.afterOperand m).pc = s.pc := (readsOnly_afterOperand s m).pc_eq
@[simp] theorem afterOperand_p (s : State) (m : MemForm) : (s.afterOperand m).p = s.p := (readsOnly_afterOperand s m).p_eq
@[simp] theorem afterOperand_nmiPending (s : State) (m : MemForm) : (s.afterOperand m).nmiPending = s.nmiPending := (readsOnly_afterOperand s m).nmiPending_eq
@[simp] theorem afterOperand_irqPending (s : State) (m : MemForm) : (s.afterOperand m).irqPending = s.irqPending := (readsOnly_afterOperand s m).irqPending_eq
@[simp] theorem afterOperand_cycles (s : State) (m : MemForm) : (s.afterOperand m).cycles = s.cycles := (readsOnly_afterOperand s m).cycles_eq
@[simp] theorem afterOperand_ram (s : State) (m : MemForm) : (s.afterOperand m).ram = s.ram := (readsOnly_afterOperand s m).ram_eq
@[simp] theorem afterOperand_portDDR (s : State) (m : MemForm) : (s.afterOperand m).portDDR = s.portDDR := (readsOnly_afterOperand s m).portDDR_eq
@[simp] theorem afterOperand_portDATA (s : State) (m : MemForm) : (s.afterOperand m).portDATA = s.portDATA := (readsOnly_afterOperand s m).portDATA_eq
@[simp] theorem afterOperand_halted (s : State) (m : MemForm) : (s.afterOperand m).halted = s.halted := (readsOnly_afterOperand s m).halted_eq
@[simp] theorem afterOperand_lastWasService (s : State) (m : MemForm) : (s.afterOperand m).lastWasService = s.lastWasService := (readsOnly_afterOperand s m).lastWasService_eq
@[simp] theorem afterOperand_iAtLastBoundary (s : State) (m : MemForm) : (s.afterOperand m).iAtLastBoundary = s.iAtLastBoundary := (readsOnly_afterOperand s m).iAtLastBoundary_eq
@[simp] theorem afterOperand_lastWasMaskOp (s : State) (m : MemForm) : (s.afterOperand m).lastWasMaskOp = s.lastWasMaskOp := (readsOnly_afterOperand s m).lastWasMaskOp_eq
@[simp] theorem afterOperand_cfg (s : State) (m : MemForm) : (s.afterOperand m).cfg = s.cfg := (readsOnly_afterOperand s m).cfg_eq

/-! ### `rmwState` -/

@[simp] theorem rmwState_a (s : State) (m : MemForm) : (s.rmwState m).a = s.a := (readsOnly_rmwState s m).a_eq
@[simp] theorem rmwState_x (s : State) (m : MemForm) : (s.rmwState m).x = s.x := (readsOnly_rmwState s m).x_eq
@[simp] theorem rmwState_y (s : State) (m : MemForm) : (s.rmwState m).y = s.y := (readsOnly_rmwState s m).y_eq
@[simp] theorem rmwState_sp (s : State) (m : MemForm) : (s.rmwState m).sp = s.sp := (readsOnly_rmwState s m).sp_eq
@[simp] theorem rmwState_pc (s : State) (m : MemForm) : (s.rmwState m).pc = s.pc := (readsOnly_rmwState s m).pc_eq
@[simp] theorem rmwState_p (s : State) (m : MemForm) : (s.rmwState m).p = s.p := (readsOnly_rmwState s m).p_eq
@[simp] theorem rmwState_nmiPending (s : State) (m : MemForm) : (s.rmwState m).nmiPending = s.nmiPending := (readsOnly_rmwState s m).nmiPending_eq
@[simp] theorem rmwState_irqPending (s : State) (m : MemForm) : (s.rmwState m).irqPending = s.irqPending := (readsOnly_rmwState s m).irqPending_eq
@[simp] theorem rmwState_cycles (s : State) (m : MemForm) : (s.rmwState m).cycles = s.cycles := (readsOnly_rmwState s m).cycles_eq
@[simp] theorem rmwState_ram (s : State) (m : MemForm) : (s.rmwState m).ram = s.ram := (readsOnly_rmwState s m).ram_eq
@[simp] theorem rmwState_portDDR (s : State) (m : MemForm) : (s.rmwState m).portDDR = s.portDDR := (readsOnly_rmwState s m).portDDR_eq
@[simp] theorem rmwState_portDATA (s : State) (m : MemForm) : (s.rmwState m).portDATA = s.portDATA := (readsOnly_rmwState s m).portDATA_eq
@[simp] theorem rmwState_halted (s : State) (m : MemForm) : (s.rmwState m).halted = s.halted := (readsOnly_rmwState s m).halted_eq
@[simp] theorem rmwState_lastWasService (s : State) (m : MemForm) : (s.rmwState m).lastWasService = s.lastWasService := (readsOnly_rmwState s m).lastWasService_eq
@[simp] theorem rmwState_iAtLastBoundary (s : State) (m : MemForm) : (s.rmwState m).iAtLastBoundary = s.iAtLastBoundary := (readsOnly_rmwState s m).iAtLastBoundary_eq
@[simp] theorem rmwState_lastWasMaskOp (s : State) (m : MemForm) : (s.rmwState m).lastWasMaskOp = s.lastWasMaskOp := (readsOnly_rmwState s m).lastWasMaskOp_eq
@[simp] theorem rmwState_cfg (s : State) (m : MemForm) : (s.rmwState m).cfg = s.cfg := (readsOnly_rmwState s m).cfg_eq

/-! ### `afterRmwRead` -/

@[simp] theorem afterRmwRead_a (s : State) (m : MemForm) : (s.afterRmwRead m).a = s.a := (readsOnly_afterRmwRead s m).a_eq
@[simp] theorem afterRmwRead_x (s : State) (m : MemForm) : (s.afterRmwRead m).x = s.x := (readsOnly_afterRmwRead s m).x_eq
@[simp] theorem afterRmwRead_y (s : State) (m : MemForm) : (s.afterRmwRead m).y = s.y := (readsOnly_afterRmwRead s m).y_eq
@[simp] theorem afterRmwRead_sp (s : State) (m : MemForm) : (s.afterRmwRead m).sp = s.sp := (readsOnly_afterRmwRead s m).sp_eq
@[simp] theorem afterRmwRead_pc (s : State) (m : MemForm) : (s.afterRmwRead m).pc = s.pc := (readsOnly_afterRmwRead s m).pc_eq
@[simp] theorem afterRmwRead_p (s : State) (m : MemForm) : (s.afterRmwRead m).p = s.p := (readsOnly_afterRmwRead s m).p_eq
@[simp] theorem afterRmwRead_nmiPending (s : State) (m : MemForm) : (s.afterRmwRead m).nmiPending = s.nmiPending := (readsOnly_afterRmwRead s m).nmiPending_eq
@[simp] theorem afterRmwRead_irqPending (s : State) (m : MemForm) : (s.afterRmwRead m).irqPending = s.irqPending := (readsOnly_afterRmwRead s m).irqPending_eq
@[simp] theorem afterRmwRead_cycles (s : State) (m : MemForm) : (s.afterRmwRead m).cycles = s.cycles := (readsOnly_afterRmwRead s m).cycles_eq
@[simp] theorem afterRmwRead_ram (s : State) (m : MemForm) : (s.afterRmwRead m).ram = s.ram := (readsOnly_afterRmwRead s m).ram_eq
@[simp] theorem afterRmwRead_portDDR (s : State) (m : MemForm) : (s.afterRmwRead m).portDDR = s.portDDR := (readsOnly_afterRmwRead s m).portDDR_eq
@[simp] theorem afterRmwRead_portDATA (s : State) (m : MemForm) : (s.afterRmwRead m).portDATA = s.portDATA := (readsOnly_afterRmwRead s m).portDATA_eq
@[simp] theorem afterRmwRead_halted (s : State) (m : MemForm) : (s.afterRmwRead m).halted = s.halted := (readsOnly_afterRmwRead s m).halted_eq
@[simp] theorem afterRmwRead_lastWasService (s : State) (m : MemForm) : (s.afterRmwRead m).lastWasService = s.lastWasService := (readsOnly_afterRmwRead s m).lastWasService_eq
@[simp] theorem afterRmwRead_iAtLastBoundary (s : State) (m : MemForm) : (s.afterRmwRead m).iAtLastBoundary = s.iAtLastBoundary := (readsOnly_afterRmwRead s m).iAtLastBoundary_eq
@[simp] theorem afterRmwRead_lastWasMaskOp (s : State) (m : MemForm) : (s.afterRmwRead m).lastWasMaskOp = s.lastWasMaskOp := (readsOnly_afterRmwRead s m).lastWasMaskOp_eq
@[simp] theorem afterRmwRead_cfg (s : State) (m : MemForm) : (s.afterRmwRead m).cfg = s.cfg := (readsOnly_afterRmwRead s m).cfg_eq

/-! ### `writeDummy` -/

@[simp] theorem writeDummy_a (s : State) (m : MemForm) : (s.writeDummy m (s.resolve m)).a = s.a := (readsOnly_writeDummy s m).a_eq
@[simp] theorem writeDummy_x (s : State) (m : MemForm) : (s.writeDummy m (s.resolve m)).x = s.x := (readsOnly_writeDummy s m).x_eq
@[simp] theorem writeDummy_y (s : State) (m : MemForm) : (s.writeDummy m (s.resolve m)).y = s.y := (readsOnly_writeDummy s m).y_eq
@[simp] theorem writeDummy_sp (s : State) (m : MemForm) : (s.writeDummy m (s.resolve m)).sp = s.sp := (readsOnly_writeDummy s m).sp_eq
@[simp] theorem writeDummy_pc (s : State) (m : MemForm) : (s.writeDummy m (s.resolve m)).pc = s.pc := (readsOnly_writeDummy s m).pc_eq
@[simp] theorem writeDummy_p (s : State) (m : MemForm) : (s.writeDummy m (s.resolve m)).p = s.p := (readsOnly_writeDummy s m).p_eq
@[simp] theorem writeDummy_nmiPending (s : State) (m : MemForm) : (s.writeDummy m (s.resolve m)).nmiPending = s.nmiPending := (readsOnly_writeDummy s m).nmiPending_eq
@[simp] theorem writeDummy_irqPending (s : State) (m : MemForm) : (s.writeDummy m (s.resolve m)).irqPending = s.irqPending := (readsOnly_writeDummy s m).irqPending_eq
@[simp] theorem writeDummy_cycles (s : State) (m : MemForm) : (s.writeDummy m (s.resolve m)).cycles = s.cycles := (readsOnly_writeDummy s m).cycles_eq
@[simp] theorem writeDummy_ram (s : State) (m : MemForm) : (s.writeDummy m (s.resolve m)).ram = s.ram := (readsOnly_writeDummy s m).ram_eq
@[simp] theorem writeDummy_portDDR (s : State) (m : MemForm) : (s.writeDummy m (s.resolve m)).portDDR = s.portDDR := (readsOnly_writeDummy s m).portDDR_eq
@[simp] theorem writeDummy_portDATA (s : State) (m : MemForm) : (s.writeDummy m (s.resolve m)).portDATA = s.portDATA := (readsOnly_writeDummy s m).portDATA_eq
@[simp] theorem writeDummy_halted (s : State) (m : MemForm) : (s.writeDummy m (s.resolve m)).halted = s.halted := (readsOnly_writeDummy s m).halted_eq
@[simp] theorem writeDummy_lastWasService (s : State) (m : MemForm) : (s.writeDummy m (s.resolve m)).lastWasService = s.lastWasService := (readsOnly_writeDummy s m).lastWasService_eq
@[simp] theorem writeDummy_iAtLastBoundary (s : State) (m : MemForm) : (s.writeDummy m (s.resolve m)).iAtLastBoundary = s.iAtLastBoundary := (readsOnly_writeDummy s m).iAtLastBoundary_eq
@[simp] theorem writeDummy_lastWasMaskOp (s : State) (m : MemForm) : (s.writeDummy m (s.resolve m)).lastWasMaskOp = s.lastWasMaskOp := (readsOnly_writeDummy s m).lastWasMaskOp_eq
@[simp] theorem writeDummy_cfg (s : State) (m : MemForm) : (s.writeDummy m (s.resolve m)).cfg = s.cfg := (readsOnly_writeDummy s m).cfg_eq

/-! ### `resolve` -/

@[simp] theorem resolve_a (s : State) (m : MemForm) : ((s.resolve m).st).a = s.a := (readsOnly_resolve s m).a_eq
@[simp] theorem resolve_x (s : State) (m : MemForm) : ((s.resolve m).st).x = s.x := (readsOnly_resolve s m).x_eq
@[simp] theorem resolve_y (s : State) (m : MemForm) : ((s.resolve m).st).y = s.y := (readsOnly_resolve s m).y_eq
@[simp] theorem resolve_sp (s : State) (m : MemForm) : ((s.resolve m).st).sp = s.sp := (readsOnly_resolve s m).sp_eq
@[simp] theorem resolve_pc (s : State) (m : MemForm) : ((s.resolve m).st).pc = s.pc := (readsOnly_resolve s m).pc_eq
@[simp] theorem resolve_p (s : State) (m : MemForm) : ((s.resolve m).st).p = s.p := (readsOnly_resolve s m).p_eq
@[simp] theorem resolve_nmiPending (s : State) (m : MemForm) : ((s.resolve m).st).nmiPending = s.nmiPending := (readsOnly_resolve s m).nmiPending_eq
@[simp] theorem resolve_irqPending (s : State) (m : MemForm) : ((s.resolve m).st).irqPending = s.irqPending := (readsOnly_resolve s m).irqPending_eq
@[simp] theorem resolve_cycles (s : State) (m : MemForm) : ((s.resolve m).st).cycles = s.cycles := (readsOnly_resolve s m).cycles_eq
@[simp] theorem resolve_ram (s : State) (m : MemForm) : ((s.resolve m).st).ram = s.ram := (readsOnly_resolve s m).ram_eq
@[simp] theorem resolve_portDDR (s : State) (m : MemForm) : ((s.resolve m).st).portDDR = s.portDDR := (readsOnly_resolve s m).portDDR_eq
@[simp] theorem resolve_portDATA (s : State) (m : MemForm) : ((s.resolve m).st).portDATA = s.portDATA := (readsOnly_resolve s m).portDATA_eq
@[simp] theorem resolve_halted (s : State) (m : MemForm) : ((s.resolve m).st).halted = s.halted := (readsOnly_resolve s m).halted_eq
@[simp] theorem resolve_lastWasService (s : State) (m : MemForm) : ((s.resolve m).st).lastWasService = s.lastWasService := (readsOnly_resolve s m).lastWasService_eq
@[simp] theorem resolve_iAtLastBoundary (s : State) (m : MemForm) : ((s.resolve m).st).iAtLastBoundary = s.iAtLastBoundary := (readsOnly_resolve s m).iAtLastBoundary_eq
@[simp] theorem resolve_lastWasMaskOp (s : State) (m : MemForm) : ((s.resolve m).st).lastWasMaskOp = s.lastWasMaskOp := (readsOnly_resolve s m).lastWasMaskOp_eq
@[simp] theorem resolve_cfg (s : State) (m : MemForm) : ((s.resolve m).st).cfg = s.cfg := (readsOnly_resolve s m).cfg_eq

end Sys2Proof.Machine
end

