-- ==== Sys2Proof/Laws/Bus.lean ====
section
/-! SUPPORT. The arbiter: what selects the port, what the stack page selects, what one write does to RAM, port and map. -/

namespace Sys2Proof.Machine

theorem c64Select_ne_port (c : BitVec 3) (a : Addr) (d : Dir) : c64Select c a d ≠ .port := by
  unfold c64Select
  cases d <;> simp only <;> repeat' split
  all_goals simp

theorem sourceAt_ne_port (src : Source) (a : Addr) : Source.at src a ≠ .port := by
  unfold Source.at
  cases src <;> simp only <;> (try split) <;> simp

theorem tableSelect_ne_port (rs : List BusRegion) (c : BitVec 3) (a : Addr) (d : Dir) : tableSelect rs c a d ≠ .port := by
  induction rs with
  | nil => simp [tableSelect]
  | cons r rs ih =>
    unfold tableSelect
    split
    · cases d <;> exact sourceAt_ne_port _ _
    · exact ih

theorem tableWriteSelect_ne_port (rs : List BusRegion) (c : BitVec 3) (a : Addr) : tableWriteSelect rs c a ≠ .port := by
  unfold tableWriteSelect
  split
  · simp
  · exact tableSelect_ne_port _ _ _ _

/-- The port is selected at 0x0000 and 0x0001, and nowhere else, under every map (R70 to R72). -/
theorem select_eq_port_iff (s : State) (a : Addr) (d : Dir) : s.select a d = .port ↔ a.toNat < 2 := by
  unfold State.select busSelect
  split
  · simp_all
  · next h =>
    refine ⟨fun h' => absurd h' ?_, fun h' => absurd h' h⟩
    split
    · exact c64Select_ne_port _ _ _
    · cases d
      · exact tableSelect_ne_port _ _ _ _
      · exact tableWriteSelect_ne_port _ _ _

/-- The C64 map already sends a write under a ROM to RAM (R61, R63). -/
theorem c64Select_write_under_rom {c : BitVec 3} {a : Addr} (h : (c64Select c a .read).isRom = true) : c64Select c a .write = .ram := by
  unfold c64Select at *
  simp only at *
  by_cases h1 : a.toNat < 0xA000
  · simp [h1]
  by_cases h2 : a.toNat < 0xC000
  · simp [h1, h2]
  by_cases h3 : a.toNat < 0xD000
  · simp [h1, h2, h3]
  by_cases h4 : a.toNat < 0xE000
  · rw [if_neg h1, if_neg h2, if_neg h3, if_pos h4] at *
    cases hl : c.getLsbD 0 <;> cases hh : c.getLsbD 1 <;> cases hc : c.getLsbD 2 <;> rw [hl, hh, hc] at h <;>
      first | rfl | exact absurd h (by decide)
  · simp [h1, h2, h3, h4]

/-- Under every map a write where the read selects a ROM goes to the RAM beneath (R63). -/
theorem select_write_under_rom {s : State} {a : Addr} (h : (s.select a .read).isRom = true) : s.select a .write = .ram := by
  unfold State.select busSelect at *
  split at h
  · simp [Source.isRom] at h
  · next hp =>
    rw [if_neg hp]
    split at h
    · exact c64Select_write_under_rom h
    · simp [tableWriteSelect, h]

/-- No write selects a ROM: the images never change (R63). -/
theorem select_write_not_rom (s : State) (a : Addr) : (s.select a .write).isRom = false := by
  unfold State.select busSelect
  split
  · rfl
  · split
    · unfold c64Select
      simp only
      repeat' split
      all_goals rfl
    · simp only [tableWriteSelect]
      split <;> simp_all [Source.isRom]

theorem select_port_of_lt (s : State) {a : Addr} (d : Dir) (h : a.toNat < 2) : s.select a d = .port :=
  (select_eq_port_iff s a d).2 h

theorem addr_lt_two (a : Addr) : a.toNat < 2 ↔ a = 0x0000#16 ∨ a = 0x0001#16 := by bv_omega

/-- Under the C64 map everything below 0xA000 but the port is RAM (R61). -/
theorem select_c64_low {s : State} (h : s.cfg.busMap = .c64) {a : Addr} (h2 : 2 ≤ a.toNat) (ha : a.toNat < 0xA000) (d : Dir) :
    s.select a d = .ram := by
  unfold State.select busSelect c64Select
  rw [h]
  simp [show ¬ a.toNat < 2 by omega, ha]

/-! ### The stack page -/

theorem stackAddr_toNat (v : Byte) : (stackAddr v).toNat = 0x100 + v.toNat := by
  revert v; decide +kernel

theorem stackAddr_inj {v w : Byte} : stackAddr v = stackAddr w ↔ v = w := by
  refine ⟨fun h => ?_, fun h => h ▸ rfl⟩
  have h := congrArg BitVec.toNat h
  rw [stackAddr_toNat, stackAddr_toNat] at h
  exact BitVec.eq_of_toNat_eq (by omega)

theorem stackAddr_ne_zero (v : Byte) : stackAddr v ≠ 0x0000#16 := by
  intro h; have := congrArg BitVec.toNat h; rw [stackAddr_toNat] at this; simp at this

theorem stackAddr_ne_one (v : Byte) : stackAddr v ≠ 0x0001#16 := by
  intro h; have := congrArg BitVec.toNat h; rw [stackAddr_toNat] at this; simp at this; omega

/-- The stack page is RAM under the C64 map (R61). -/
theorem select_c64_stack {s : State} (h : s.cfg.busMap = .c64) (v : Byte) (d : Dir) : s.select (stackAddr v) d = .ram :=
  select_c64_low h (by rw [stackAddr_toNat]; omega) (by rw [stackAddr_toNat]; omega) d

@[simp] theorem push_portDDR (s : State) (v : Byte) : (s.push v).portDDR = s.portDDR := by
  simp [State.push, stackAddr_ne_zero]

@[simp] theorem push_portDATA (s : State) (v : Byte) : (s.push v).portDATA = s.portDATA := by
  simp [State.push, stackAddr_ne_one]

@[simp] theorem pushWord_portDDR (s : State) (w : Addr) : (s.pushWord w).portDDR = s.portDDR := by simp [State.pushWord]

@[simp] theorem pushWord_portDATA (s : State) (w : Addr) : (s.pushWord w).portDATA = s.portDATA := by simp [State.pushWord]

/-- A push does not remap memory. -/
@[simp] theorem push_select (s : State) (v : Byte) (a : Addr) (d : Dir) : (s.push v).select a d = s.select a d := by
  unfold State.select State.bankCfg
  rw [push_portDDR, push_portDATA, push_cfg]

/-! ### One write -/

theorem ramAfterWrite_of_ram {s : State} {a : Addr} (h : s.select a .write = .ram) (v : Byte) :
    s.ramAfterWrite a v = s.ram.write a.toNat v := by simp [State.ramAfterWrite, h]

/-- A write never changes a RAM byte at another address. -/
theorem ramAfterWrite_read_other (s : State) {a : Addr} {b : Nat} (v : Byte) (hb : b ≠ a.toNat) :
    (s.ramAfterWrite a v).read b = s.ram.read b := by
  unfold State.ramAfterWrite
  split
  · exact Memory.read_write_other _ v hb
  all_goals rfl

/-- A write keeps RAM canonical. -/
theorem ramAfterWrite_wf {s : State} (h : s.ram.wf = true) (a : Addr) (v : Byte) : (s.ramAfterWrite a v).wf = true := by
  unfold State.ramAfterWrite
  split
  · exact Memory.wf_write h _ _
  all_goals exact h

/-- A write keeps RAM inside the address space. -/
theorem ramAfterWrite_within {s : State} (h : s.ram.within 65536 = true) (a : Addr) (v : Byte) :
    (s.ramAfterWrite a v).within 65536 = true := by
  unfold State.ramAfterWrite
  split
  · exact Memory.within_write v h a.isLt
  all_goals exact h

/-- The RAM bytes at 0x0000 and 0x0001 are out of the CPU's reach (R72). -/
theorem ramAfterWrite_read_port (s : State) (a : Addr) (v : Byte) {b : Nat} (hb : b < 2) :
    (s.ramAfterWrite a v).read b = s.ram.read b := by
  by_cases h : b = a.toNat
  · unfold State.ramAfterWrite
    rw [select_port_of_lt s .write (by omega)]
  · exact ramAfterWrite_read_other s v h

/-- A write anywhere but to the port leaves the map as it is. -/
theorem memWrite_select {s : State} {a : Addr} (v : Byte) (h : ¬ a.toNat < 2) (b : Addr) (d : Dir) :
    (s.memWrite a v).select b d = s.select b d := by
  have h0 : a ≠ 0x0000#16 := by rintro rfl; simp at h
  have h1 : a ≠ 0x0001#16 := by rintro rfl; simp at h
  unfold State.select State.bankCfg
  rw [memWrite_portDDR, memWrite_portDATA, memWrite_cfg, if_neg h0, if_neg h1]

/-- Under the C64 map no write is invalid (R67). -/
theorem bankWriteInvalid_c64 {s : State} (h : s.cfg.busMap = .c64) (a : Addr) (v : Byte) : s.bankWriteInvalid a v = false := by
  simp [State.bankWriteInvalid, h]

/-- What RAM answers. -/
theorem peek_of_ram {s : State} {a : Addr} (h : s.select a .read = .ram) : s.peek a = s.ram.read a.toNat := by
  simp [State.peek, h]

/-- Reading RAM or ROM changes nothing at all (R66). -/
theorem afterRead_of_ram {s : State} {a : Addr} (h : s.select a .read = .ram) : s.afterRead a = s := by
  simp [State.afterRead, State.drawsAfterRead, State.ioLogAfterRead, h]

end Sys2Proof.Machine
end

