-- ==== Sys2Proof/Laws/Step.lean ====
section
/-! SUPPORT. What a fetch, an interrupt service and a step can do, each said once. -/

namespace Sys2Proof.Machine

/-! ### The fetch -/

theorem fetchBytes_length {n : Nat} {a : Addr} {s : State} {bs : List Byte} {t : State}
    (h : State.fetchBytes n a s = .next (bs, t)) : bs.length = n := by
  induction n generalizing a s bs t with
  | zero =>
    simp only [State.fetchBytes, Host.Outcome.next.injEq, Prod.mk.injEq] at h
    rw [← h.1]; rfl
  | succ n ih =>
    simp only [State.fetchBytes] at h
    split at h
    · cases h
    · split at h
      · next h' =>
        simp only [Host.Outcome.next.injEq, Prod.mk.injEq] at h
        rw [← h.1, List.length_cons, ih h']
      · cases h
      · cases h

/-- Fetching bytes never faults. -/
theorem fetchBytes_ne_fault (n : Nat) (a : Addr) (s : State) (f : Fault) : State.fetchBytes n a s ≠ .fault f := by
  induction n generalizing a s f with
  | zero => simp [State.fetchBytes]
  | succ n ih =>
    simp only [State.fetchBytes]
    split
    · simp
    · split
      · simp
      · next h => exact absurd h (ih _ _ _)
      · simp

/-- An opcode with as many operand bytes as its mode has decodes. -/
theorem decode_of_length {op : Byte} {n : Nat} (h : opcodeLength op = some n) {bs : List Byte} (hl : bs.length = n - 1) :
    ∃ i, decode (op :: bs) = .ok (i, []) := by
  unfold opcodeLength at h
  unfold decode
  cases hs : shapeOf op with
  | none => rw [hs] at h; cases h
  | some sh =>
    rw [hs] at h
    cases sh with
    | bare i =>
      cases h
      rw [List.length_eq_zero_iff.1 hl]
      exact ⟨i, by simp only [hs]⟩
    | withByte mk =>
      cases h
      obtain ⟨b, rfl⟩ := List.length_eq_one_iff.1 hl
      exact ⟨mk b, by simp only [hs]⟩
    | withWord mk =>
      cases h
      obtain ⟨b, c, rfl⟩ := List.length_eq_two.1 hl
      exact ⟨mk (wordOf c b), by simp only [hs]⟩

/-- A fetch that answers an instruction: its bytes were read from PC on, and nothing else happened. -/
theorem fetch_next {s t : State} {i : Instr} :
    s.fetch = .next (i, t) ↔ s.fetchRefused s.pc = false ∧
      ∃ n bs, opcodeLength (s.peek s.pc) = some n ∧
        (s.afterRead s.pc).fetchBytes (n - 1) (s.pc + 1#16) = .next (bs, t) ∧ decode (s.peek s.pc :: bs) = .ok (i, []) := by
  unfold State.fetch
  split
  · next h => simp [h]
  · next h =>
    simp only [Bool.not_eq_true] at h
    simp only [h, true_and]
    split
    · next hn => simp [hn]
    · next n hn =>
      simp only [hn, Option.some.injEq, exists_and_left, exists_eq_left']
      split
      · next hb => simp [hb]
      · next hb => simp [hb]
      · next bs u hb =>
        obtain ⟨j, hj⟩ := decode_of_length hn (fetchBytes_length hb)
        simp only [hb, Host.Outcome.next.injEq, Prod.mk.injEq, hj]
        constructor
        · rintro ⟨rfl, rfl⟩; exact ⟨bs, ⟨rfl, rfl⟩, hj⟩
        · rintro ⟨bs', ⟨rfl, rfl⟩, hd⟩; rw [hj] at hd; cases hd; exact ⟨rfl, rfl⟩

/-- A fetch faults exactly on an illegal byte at PC (R94, R280). -/
theorem fetch_fault {s : State} {f : Fault} :
    s.fetch = .fault f ↔ s.fetchRefused s.pc = false ∧ opcodeLength (s.peek s.pc) = none ∧ f = .illegalOpcode s.pc (s.peek s.pc) := by
  unfold State.fetch
  split
  · next h => simp [h]
  · next h =>
    simp only [Bool.not_eq_true] at h
    simp only [h, true_and]
    split
    · next hn => simp only [hn, true_and, Host.Outcome.fault.injEq]; exact eq_comm
    · next n hn =>
      simp only [hn, reduceCtorEq, false_and, iff_false]
      split
      · next hb => exact absurd hb (fetchBytes_ne_fault _ _ _ _)
      · simp
      · next hb =>
        obtain ⟨j, hj⟩ := decode_of_length hn (fetchBytes_length hb)
        simp [hj]

/-- A read does not move the I/O window, so it does not change which fetches are refused. -/
@[simp] theorem afterRead_fetchRefused (s : State) (a b : Addr) : (s.afterRead a).fetchRefused b = s.fetchRefused b := rfl

/-- Fetching bytes is refused at the first byte in the I/O window (R127, R284), and for no other reason. -/
theorem fetchBytes_refused {n : Nat} {a : Addr} {s : State} {r : Refusal} :
    State.fetchBytes n a s = .refused r ↔ ∃ k, k < n ∧ r = .ioFetchUnderDummy (a + BitVec.ofNat 16 k) ∧
      (∀ j, j < k → s.fetchRefused (a + BitVec.ofNat 16 j) = false) ∧ s.fetchRefused (a + BitVec.ofNat 16 k) = true := by
  induction n generalizing a s with
  | zero => simp [State.fetchBytes]
  | succ n ih =>
    have hs : ∀ k, a + 1#16 + BitVec.ofNat 16 k = a + BitVec.ofNat 16 (k + 1) := fun k => by
      rw [BitVec.add_assoc, Nat.add_comm, BitVec.ofNat_add]
    simp only [State.fetchBytes]
    cases h0 : s.fetchRefused a with
    | true =>
      simp only [if_true, Host.Outcome.refused.injEq]
      constructor
      · rintro rfl; exact ⟨0, by omega, by simp, by simp, by simpa using h0⟩
      · rintro ⟨k, -, rfl, hj, -⟩
        cases k with
        | zero => simp
        | succ k => have := hj 0 (by omega); simp [h0] at this
    | false =>
      simp only [Bool.false_eq_true, if_false]
      have hr : (∃ k, k < n + 1 ∧ r = .ioFetchUnderDummy (a + BitVec.ofNat 16 k) ∧
          (∀ j, j < k → s.fetchRefused (a + BitVec.ofNat 16 j) = false) ∧ s.fetchRefused (a + BitVec.ofNat 16 k) = true) ↔
          State.fetchBytes n (a + 1#16) (s.afterRead a) = .refused r := by
        rw [ih]
        simp only [hs, afterRead_fetchRefused]
        constructor
        · rintro ⟨k, hk, rfl, hj, ht⟩
          cases k with
          | zero => simp [h0] at ht
          | succ k => exact ⟨k, by omega, rfl, fun j hjk => hj (j + 1) (by omega), ht⟩
        · rintro ⟨k, hk, rfl, hj, ht⟩
          refine ⟨k + 1, by omega, rfl, fun j hjk => ?_, ht⟩
          cases j with
          | zero => simpa using h0
          | succ j => exact hj j (by omega)
      rw [hr]
      split
      · next e => simp [e]
      · next e => simp [e]
      · next e => simp [e]

/-- A fetch is refused at the first byte of the instruction in the I/O window, the opcode's or an operand byte's (R127, R284), and for
no other reason. -/
theorem fetch_refused {s : State} {r : Refusal} :
    s.fetch = .refused r ↔ ∃ k, r = .ioFetchUnderDummy (s.pc + BitVec.ofNat 16 k) ∧
      (k = 0 ∨ ∃ n, opcodeLength (s.peek s.pc) = some n ∧ k < n) ∧
      (∀ j, j < k → s.fetchRefused (s.pc + BitVec.ofNat 16 j) = false) ∧
      s.fetchRefused (s.pc + BitVec.ofNat 16 k) = true := by
  have hs : ∀ k, s.pc + 1#16 + BitVec.ofNat 16 k = s.pc + BitVec.ofNat 16 (k + 1) := fun k => by
    rw [BitVec.add_assoc, Nat.add_comm, BitVec.ofNat_add]
  unfold State.fetch
  cases h0 : s.fetchRefused s.pc with
  | true =>
    simp only [if_true, Host.Outcome.refused.injEq]
    constructor
    · rintro rfl; exact ⟨0, by simp, .inl rfl, by simp, by simpa using h0⟩
    · rintro ⟨k, rfl, -, hj, -⟩
      cases k with
      | zero => simp
      | succ k => have := hj 0 (by omega); simp [h0] at this
  | false =>
    simp only [Bool.false_eq_true, if_false]
    cases hn : opcodeLength (s.peek s.pc) with
    | none =>
      simp only [reduceCtorEq, false_and, exists_false, or_false, false_iff, not_exists]
      rintro k ⟨-, rfl, -, ht⟩
      simp [h0] at ht
    | some n =>
      simp only [Option.some.injEq, exists_eq_left']
      have hr : (∃ k, r = .ioFetchUnderDummy (s.pc + BitVec.ofNat 16 k) ∧ (k = 0 ∨ k < n) ∧
          (∀ j, j < k → s.fetchRefused (s.pc + BitVec.ofNat 16 j) = false) ∧
          s.fetchRefused (s.pc + BitVec.ofNat 16 k) = true) ↔
          State.fetchBytes (n - 1) (s.pc + 1#16) (s.afterRead s.pc) = .refused r := by
        rw [fetchBytes_refused]
        simp only [hs, afterRead_fetchRefused]
        constructor
        · rintro ⟨k, rfl, hk, hj, ht⟩
          cases k with
          | zero => simp [h0] at ht
          | succ k => exact ⟨k, by omega, rfl, fun j hjk => hj (j + 1) (by omega), ht⟩
        · rintro ⟨k, hk, rfl, hj, ht⟩
          refine ⟨k + 1, rfl, .inr (by omega), fun j hjk => ?_, ht⟩
          cases j with
          | zero => simpa using h0
          | succ j => exact hj j (by omega)
      rw [hr]
      split
      · next e => simp [e]
      · next e => simp [e]
      · next bs u e =>
        obtain ⟨i, hi⟩ := decode_of_length hn (fetchBytes_length e)
        simp [hi, e]

/-- A fetch leaves everything but the draws and the device's log. -/
theorem fetch_readsOnly {s t : State} {i : Instr} (h : s.fetch = .next (i, t)) : ReadsOnly s t := by
  obtain ⟨_, n, bs, _, hb, _⟩ := fetch_next.1 h
  exact (readsOnly_afterRead s s.pc).trans (readsOnly_fetchBytes _ _ _ _ _ hb)

/-! ### The service sequence (R266) -/

@[simp] theorem service_a (s : State) (k : Interrupt) : (s.service k).a = s.a := by
  cases k <;> simp [State.service, State.clearLatch]
@[simp] theorem service_x (s : State) (k : Interrupt) : (s.service k).x = s.x := by
  cases k <;> simp [State.service, State.clearLatch]
@[simp] theorem service_y (s : State) (k : Interrupt) : (s.service k).y = s.y := by
  cases k <;> simp [State.service, State.clearLatch]
@[simp] theorem service_sp (s : State) (k : Interrupt) : (s.service k).sp = s.sp - 1#8 - 1#8 - 1#8 := by
  cases k <;> simp [State.service, State.clearLatch]
@[simp] theorem service_p (s : State) (k : Interrupt) : (s.service k).p = { s.p with i := true } := by
  cases k <;> simp [State.service, State.clearLatch]
@[simp] theorem service_cycles (s : State) (k : Interrupt) : (s.service k).cycles = s.cycles + 7 := rfl
@[simp] theorem service_halted (s : State) (k : Interrupt) : (s.service k).halted = s.halted := by
  cases k <;> simp [State.service, State.clearLatch]
@[simp] theorem service_lastWasService (s : State) (k : Interrupt) : (s.service k).lastWasService = true := rfl
@[simp] theorem service_iAtLastBoundary (s : State) (k : Interrupt) : (s.service k).iAtLastBoundary = s.iAtLastBoundary := by
  cases k <;> simp [State.service, State.clearLatch]
@[simp] theorem service_lastWasMaskOp (s : State) (k : Interrupt) : (s.service k).lastWasMaskOp = s.lastWasMaskOp := by
  cases k <;> simp [State.service, State.clearLatch]
@[simp] theorem service_cfg (s : State) (k : Interrupt) : (s.service k).cfg = s.cfg := by
  cases k <;> simp [State.service, State.clearLatch]
theorem service_nmiPending (s : State) (k : Interrupt) :
    (s.service k).nmiPending = (s.nmiPending && decide (k ≠ .nmi)) := by
  cases k <;> simp [State.service, State.clearLatch]
theorem service_irqPending (s : State) (k : Interrupt) :
    (s.service k).irqPending = (s.irqPending && decide (k ≠ .irq)) := by
  cases k <;> simp [State.service, State.clearLatch]

/-! ### The step (R260) -/

theorem commitResult_next {i : Instr} {i0 : Bool} {r : Result} {t : State} :
    commitResult i i0 r = .next t ↔ ∃ u, r = .next u ∧ t = u.commit i i0 := by
  cases r with
  | next u => simp only [commitResult, Host.Outcome.next.injEq, exists_eq_left']; exact eq_comm
  | fault f => simp [commitResult]
  | refused r => simp [commitResult]

/-- Nothing at PC is refused under `LOGICAL`. -/
theorem fetchRefused_logical {s : State} (h : s.cfg.busFidelity = .logical) (a : Addr) : s.fetchRefused a = false := by
  simp [State.fetchRefused, h]

/-- What a refused dummy read is: one of those the instruction makes, in the I/O window, under `NMOS_DUMMY`. -/
theorem pcDummyRefused_some {s : State} {i : Instr} {a : Addr} (h : s.pcDummyRefused i = some a) :
    a ∈ s.pcDummyReads i ∧ s.fetchRefused a = true := ⟨List.mem_of_find?_eq_some h, List.find?_some h⟩

theorem pcDummyRefused_none {s : State} {i : Instr} :
    s.pcDummyRefused i = none ↔ ∀ a ∈ s.pcDummyReads i, s.fetchRefused a = false := by
  simp [State.pcDummyRefused]

theorem pcDummyRefused_logical {s : State} (h : s.cfg.busFidelity = .logical) (i : Instr) : s.pcDummyRefused i = none :=
  pcDummyRefused_none.2 fun a _ => fetchRefused_logical h a

theorem execute_of_allowed {s : State} {i : Instr} (h : s.pcDummyRefused i = none) : s.execute i = exec i s := by
  simp [State.execute, h]

theorem execute_next {s t : State} {i : Instr} : s.execute i = .next t ↔ s.pcDummyRefused i = none ∧ exec i s = .next t := by
  unfold State.execute
  split <;> simp_all

theorem execute_refused {s : State} {i : Instr} {r : Refusal} :
    s.execute i = .refused r ↔ (∃ a, s.pcDummyRefused i = some a ∧ r = .ioPcUnderDummy a) ∨
      (s.pcDummyRefused i = none ∧ exec i s = .refused r) := by
  unfold State.execute
  split
  · next a h => simp [h, eq_comm]
  · next h => simp [h]

theorem execute_fault {s : State} {i : Instr} {f : Fault} :
    s.execute i = .fault f ↔ s.pcDummyRefused i = none ∧ exec i s = .fault f := by
  unfold State.execute
  split <;> simp_all

theorem takeInterrupt_next {k : Interrupt} {s t : State} :
    s.takeInterrupt k = .next t ↔ s.fetchRefused s.pc = false ∧ t = s.service k := by
  unfold State.takeInterrupt
  split
  · simp_all
  · simp_all; exact eq_comm

theorem takeInterrupt_refused {k : Interrupt} {s : State} {r : Refusal} :
    s.takeInterrupt k = .refused r ↔ s.fetchRefused s.pc = true ∧ r = .ioPcUnderDummy s.pc := by
  unfold State.takeInterrupt
  split
  · simp_all; exact eq_comm
  · simp_all

theorem takeInterrupt_ne_fault (k : Interrupt) (s : State) (f : Fault) : s.takeInterrupt k ≠ .fault f := by
  unfold State.takeInterrupt
  split <;> simp

theorem runInstruction_next {s t : State} :
    s.runInstruction = .next t ↔
      ∃ i u v, s.fetch = .next (i, u) ∧ u.pcDummyRefused i = none ∧ exec i u = .next v ∧ t = v.commit i s.p.i := by
  unfold State.runInstruction
  cases hf : s.fetch with
  | next r =>
    obtain ⟨i, u⟩ := r
    simp only [commitResult_next, execute_next, Host.Outcome.next.injEq, Prod.mk.injEq]
    constructor
    · rintro ⟨v, ⟨hp, hv⟩, ht⟩; exact ⟨i, u, v, ⟨rfl, rfl⟩, hp, hv, ht⟩
    · rintro ⟨_, _, v, ⟨rfl, rfl⟩, hp, hv, ht⟩; exact ⟨v, ⟨hp, hv⟩, ht⟩
  | fault f => simp
  | refused r => simp

/-- The whole of a step that commits: an interrupt service, or one instruction fetched, executed and committed. -/
theorem step_next {s t : State} :
    step s = .next t ↔ s.halted = none ∧
      ((∃ k, s.poll = some k ∧ s.fetchRefused s.pc = false ∧ t = s.service k) ∨
        (s.poll = none ∧ ∃ i u v, s.fetch = .next (i, u) ∧ u.pcDummyRefused i = none ∧ exec i u = .next v ∧
          t = v.commit i s.p.i)) := by
  unfold step
  cases hh : s.halted with
  | some f => simp
  | none =>
    cases hp : s.poll with
    | some k => simp [takeInterrupt_next]
    | none => simp [runInstruction_next]

theorem runInstruction_refused {s : State} {r : Refusal} :
    s.runInstruction = .refused r ↔ s.fetch = .refused r ∨
      ∃ i u, s.fetch = .next (i, u) ∧
        ((∃ a, u.pcDummyRefused i = some a ∧ r = .ioPcUnderDummy a) ∨ (u.pcDummyRefused i = none ∧ exec i u = .refused r)) := by
  unfold State.runInstruction
  cases hf : s.fetch with
  | next q =>
    obtain ⟨i, u⟩ := q
    simp only [reduceCtorEq, false_or, Host.Outcome.next.injEq, Prod.mk.injEq, ← execute_refused]
    constructor
    · intro h
      refine ⟨i, u, ⟨rfl, rfl⟩, ?_⟩
      cases he : u.execute i <;> rw [he] at h <;> cases h
      rfl
    · rintro ⟨_, _, ⟨rfl, rfl⟩, he⟩; rw [he]; rfl
  | fault f => simp
  | refused q => simp

/-- The whole of a refused step: its service was refused, its fetch, a dummy read of the program-counter address, or its
instruction. -/
theorem step_refused {s : State} {r : Refusal} :
    step s = .refused r ↔ s.halted = none ∧
      ((∃ k, s.poll = some k ∧ s.fetchRefused s.pc = true ∧ r = .ioPcUnderDummy s.pc) ∨
        (s.poll = none ∧ (s.fetch = .refused r ∨ ∃ i u, s.fetch = .next (i, u) ∧
          ((∃ a, u.pcDummyRefused i = some a ∧ r = .ioPcUnderDummy a) ∨
            (u.pcDummyRefused i = none ∧ exec i u = .refused r))))) := by
  unfold step
  cases hh : s.halted with
  | some f => simp
  | none =>
    cases hp : s.poll with
    | some k => simp [takeInterrupt_refused]
    | none => simp [runInstruction_refused]

theorem step_of_halted {s : State} {f : Fault} (h : s.halted = some f) : step s = .fault f := by simp [step, h]

end Sys2Proof.Machine
end

