-- ==== Sys2Proof/Laws/Exceptions.lean ====
section
/-! SUPPORT. What a push, a pair of pushes, an exception entry and an interrupt service leave in memory and in the map; what a pull
reads. -/

namespace Sys2Proof.Machine

@[simp] theorem sub_one_toNat (b : Byte) : (b - 1#8).toNat = (b.toNat + 255) % 256 := by
  rw [BitVec.toNat_sub]; simp; omega

@[simp] theorem takeException_portDDR (s : State) (ret : Addr) (b : Bool) (vector : Addr) :
    (s.takeException ret b vector).portDDR = s.portDDR := by simp [State.takeException]

@[simp] theorem takeException_portDATA (s : State) (ret : Addr) (b : Bool) (vector : Addr) :
    (s.takeException ret b vector).portDATA = s.portDATA := by simp [State.takeException]

@[simp] theorem service_portDDR (s : State) (k : Interrupt) : (s.service k).portDDR = s.portDDR := by
  cases k <;> simp [State.service, State.clearLatch]

@[simp] theorem service_portDATA (s : State) (k : Interrupt) : (s.service k).portDATA = s.portDATA := by
  cases k <;> simp [State.service, State.clearLatch]

theorem service_ram (s : State) (k : Interrupt) : (s.service k).ram = (s.takeException s.pc false k.vector).ram := by
  cases k <;> rfl

/-- Two states with the same port and configuration see the same map. -/
theorem select_congr {s t : State} (hd : t.portDDR = s.portDDR) (hv : t.portDATA = s.portDATA) (hc : t.cfg = s.cfg) (a : Addr)
    (d : Dir) : t.select a d = s.select a d := by
  unfold State.select State.bankCfg
  rw [hd, hv, hc]

@[simp] theorem service_select (s : State) (k : Interrupt) (a : Addr) (d : Dir) : (s.service k).select a d = s.select a d :=
  select_congr (by simp) (by simp) (by simp) a d

@[simp] theorem takeException_select (s : State) (ret : Addr) (b : Bool) (vector : Addr) (a : Addr) (d : Dir) :
    (s.takeException ret b vector).select a d = s.select a d :=
  select_congr (by simp) (by simp) (by simp) a d

/-- RAM after a push, where the stack page is RAM (R56). -/
theorem push_ram_read {s : State} (hw : s.ram.wf = true) (hs : s.select (stackAddr s.sp) .write = .ram) (v : Byte) (a : Nat) :
    (s.push v).ram.read a = if a = (stackAddr s.sp).toNat then v else s.ram.read a := by
  rw [push_ram, ramAfterWrite_of_ram hs, Memory.read_write hw]

theorem push_ram_wf {s : State} (hw : s.ram.wf = true) (v : Byte) : (s.push v).ram.wf = true := by
  rw [push_ram]; exact ramAfterWrite_wf hw _ _

/-- RAM after a 16-bit push, where the stack page is RAM (R58, R230). -/
theorem pushWord_ram_read {s : State} (hw : s.ram.wf = true) (hs : ∀ v, s.select (stackAddr v) .write = .ram) (w : Addr)
    (a : Nat) :
    (s.pushWord w).ram.read a =
      if a = (stackAddr (s.sp - 1#8)).toNat then loByte w
      else if a = (stackAddr s.sp).toNat then hiByte w else s.ram.read a := by
  unfold State.pushWord
  rw [push_ram_read (push_ram_wf hw _) (by simp [hs]), push_ram_read hw (hs _)]
  rfl

theorem pushWord_ram_wf {s : State} (hw : s.ram.wf = true) (w : Addr) : (s.pushWord w).ram.wf = true :=
  push_ram_wf (push_ram_wf hw _) _

@[simp] theorem pushWord_select (s : State) (w : Addr) (a : Addr) (d : Dir) : (s.pushWord w).select a d = s.select a d :=
  select_congr (by simp) (by simp) (by simp) a d

/-- RAM after an exception entry, where the stack page is RAM (R233, R266, R268): three bytes, and no other. -/
theorem takeException_ram_read {s : State} (hw : s.ram.wf = true) (hs : ∀ v, s.select (stackAddr v) .write = .ram) (ret : Addr)
    (b : Bool) (vector : Addr) (a : Nat) :
    (s.takeException ret b vector).ram.read a =
      if a = (stackAddr (s.sp - 1#8 - 1#8)).toNat then s.p.pack b
      else if a = (stackAddr (s.sp - 1#8)).toNat then loByte ret
      else if a = (stackAddr s.sp).toNat then hiByte ret else s.ram.read a := by
  rw [takeException_ram, push_ram_read (pushWord_ram_wf hw _) (by simp [hs]), pushWord_ram_read hw hs]
  rfl

theorem takeException_ram_wf {s : State} (hw : s.ram.wf = true) (ret : Addr) (b : Bool) (vector : Addr) :
    (s.takeException ret b vector).ram.wf = true := by
  rw [takeException_ram]; exact push_ram_wf (pushWord_ram_wf hw _) _

/-- The byte a pull reads, where the stack page is RAM (R57). -/
theorem pullByte_of_ram {s : State} (h : s.select (stackAddr (s.sp + 1#8)) .read = .ram) :
    s.pullByte = s.ram.read (stackAddr (s.sp + 1#8)).toNat := peek_of_ram h

@[simp] theorem afterPull_select (s : State) (a : Addr) (d : Dir) : s.afterPull.select a d = s.select a d := rfl

/-- Unpacking a packed status byte gives the flags back (R28, R29). -/
@[simp] theorem unpackFlags_pack (p : Flags) (b : Bool) : unpackFlags (p.pack b) = p := by
  rcases p with ⟨n, v, d, i, z, c⟩
  revert b n v d i z c
  decide

end Sys2Proof.Machine
end

