-- ==== Sys2Proof/Laws/Operands.lean ====
section
/-! SUPPORT. What each shared form of an instruction can do, said once: if it answers a next state, then this one. -/

namespace Sys2Proof.Machine

/-- Which next state an answer is. -/
theorem next_eq_next {s t : State} : (Host.Outcome.next s : Result) = .next t ↔ t = s :=
  ⟨fun h => (Host.Outcome.next.inj h).symm, fun h => h ▸ rfl⟩

/-- No pointer is refused under `LOGICAL`. -/
theorem pointerRefused_logical {s : State} (h : s.cfg.busFidelity = .logical) (m : MemForm) : s.pointerRefused m = none := by
  simp [State.pointerRefused, h]

/-- No pointer is refused in a mode that has none. -/
theorem pointerRefused_of_no_pointer (s : State) {m : MemForm} (h : s.pointerOf m = none) : s.pointerRefused m = none := by
  unfold State.pointerRefused
  split
  · rfl
  · simp [h]

/-- A pointer is refused exactly under `NMOS_DUMMY`, in a mode that has one, with one of its bytes in the I/O window (R127, R284). -/
theorem pointerRefused_some {s : State} {m : MemForm} {z : Byte} :
    s.pointerRefused m = some z ↔ s.cfg.busFidelity = .nmosDummy ∧ s.pointerOf m = some z ∧
      (s.select (zext16 z) .read = .io ∨ s.select (zext16 (z + 1#8)) .read = .io) := by
  unfold State.pointerRefused
  split
  · next h => simp [h]
  · next h =>
    simp only [h, true_and]
    split
    · next hp => simp [hp]
    · next w hp =>
      simp only [hp, Bool.or_eq_true, beq_iff_eq, Option.some.injEq]
      split
      · next hs =>
        rw [Option.some.injEq]
        exact ⟨fun e => ⟨e, e ▸ hs⟩, And.left⟩
      · next hs => simp only [reduceCtorEq, false_iff, not_and]; exact fun e => e ▸ hs

/-- The read class: refused on a refused pointer, otherwise its operation on the operand. -/
theorem readInstr_of_allowed {s : State} {m : MemForm} (h : s.pointerRefused m = none) (base : Nat)
    (k : Byte → State → Result) :
    readInstr m base k s = k (s.operandByte m) ((s.afterOperand m).retire m.mode.length (base + s.pageCost m)) := by
  simp [readInstr, h]

theorem readInstr_next {m : MemForm} {base : Nat} {k : Byte → State → Result} {s t : State} :
    readInstr m base k s = .next t ↔ s.pointerRefused m = none ∧
      k (s.operandByte m) ((s.afterOperand m).retire m.mode.length (base + s.pageCost m)) = .next t := by
  unfold readInstr
  split <;> simp_all

theorem readInstr_refused {m : MemForm} {base : Nat} {k : Byte → State → Result} {s : State} {r : Refusal} :
    readInstr m base k s = .refused r ↔ (∃ z, s.pointerRefused m = some z ∧ r = .ioPointerUnderDummy z) ∨
      (s.pointerRefused m = none ∧
        k (s.operandByte m) ((s.afterOperand m).retire m.mode.length (base + s.pageCost m)) = .refused r) := by
  unfold readInstr
  split
  · next z h => simp [h, eq_comm]
  · next h => simp [h]

/-- The write class: refused, faulted, or one write and the fall-through. -/
theorem writeInstr_next {op : Byte} {m : MemForm} {base : Nat} {v : Byte} {s t : State} :
    writeInstr op m base v s = .next t ↔ s.pointerRefused m = none ∧
      (s.writeDummy m (s.resolve m)).bankWriteInvalid (s.resolve m).ea v = false ∧
      t = ((s.writeDummy m (s.resolve m)).memWrite (s.resolve m).ea v).retire m.mode.length base := by
  unfold writeInstr
  split
  · simp_all
  · simp only
    split
    · simp_all
    · simp_all; exact eq_comm

theorem writeInstr_refused {op : Byte} {m : MemForm} {base : Nat} {v : Byte} {s : State} {r : Refusal} :
    writeInstr op m base v s = .refused r ↔ ∃ z, s.pointerRefused m = some z ∧ r = .ioPointerUnderDummy z := by
  unfold writeInstr
  split
  · next z h => simp [h, eq_comm]
  · next h =>
    simp only [h, reduceCtorEq, false_and, exists_false, iff_false]
    split <;> simp

/-- The read-modify-write class: refused, faulted, or the write of the new value and the fall-through. -/
theorem rmwInstr_next {op : Byte} {m : MemForm} {base : Nat} {f : Byte → Flags → Byte × Flags} {s t : State} :
    rmwInstr op m base f s = .next t ↔ s.pointerRefused m = none ∧
      (s.afterRmwRead m).rmwInvalid (s.resolve m).ea (s.rmwByte m) (f (s.rmwByte m) s.p).1 = false ∧
      t = (((s.afterRmwRead m).rmwWrite (s.resolve m).ea (s.rmwByte m) (f (s.rmwByte m) s.p).1).setP
            (f (s.rmwByte m) s.p).2).retire m.mode.length base := by
  unfold rmwInstr
  split
  · simp_all
  · simp only
    split
    · simp_all
    · simp_all; exact eq_comm

theorem rmwInstr_refused {op : Byte} {m : MemForm} {base : Nat} {f : Byte → Flags → Byte × Flags} {s : State} {r : Refusal} :
    rmwInstr op m base f s = .refused r ↔ ∃ z, s.pointerRefused m = some z ∧ r = .ioPointerUnderDummy z := by
  unfold rmwInstr
  split
  · next z h => simp [h, eq_comm]
  · next h =>
    simp only [h, reduceCtorEq, false_and, exists_false, iff_false]
    split <;> simp

@[simp] theorem accInstr_next {f : Byte → Flags → Byte × Flags} {s t : State} :
    accInstr f s = .next t ↔ t = (s.setAP (f s.a s.p)).retire 1 2 := by simp only [accInstr, next_eq_next]

@[simp] theorem impInstr_next {cost : Nat} {f : State → State} {s t : State} :
    impInstr cost f s = .next t ↔ t = (f s).retire 1 cost := by simp only [impInstr, next_eq_next]

/-- A branch always answers a next state. -/
theorem branchInstr_next {taken : Bool} {rel : Byte} {s t : State} :
    branchInstr taken rel s = .next t ↔
      t = if taken then s.jumpTo (s.branchTarget rel) (3 + bitNat (pageCross s.branchNext (s.branchTarget rel)))
          else s.jumpTo s.branchNext 2 := by
  unfold branchInstr
  cases taken <;> simp only [if_true, if_false, Bool.false_eq_true, next_eq_next]

/-! ### The operations of the read class -/

@[simp] theorem opLda_next {v : Byte} {s t : State} : opLda v s = .next t ↔ t = s.loadA v := by simp only [opLda, next_eq_next]
@[simp] theorem opLdx_next {v : Byte} {s t : State} : opLdx v s = .next t ↔ t = s.loadX v := by simp only [opLdx, next_eq_next]
@[simp] theorem opLdy_next {v : Byte} {s t : State} : opLdy v s = .next t ↔ t = s.loadY v := by simp only [opLdy, next_eq_next]
@[simp] theorem opCmp_next {v : Byte} {s t : State} : opCmp v s = .next t ↔ t = s.setP (compareFlags s.a v s.p) := by
  simp only [opCmp, next_eq_next]
@[simp] theorem opCpx_next {v : Byte} {s t : State} : opCpx v s = .next t ↔ t = s.setP (compareFlags s.x v s.p) := by
  simp only [opCpx, next_eq_next]
@[simp] theorem opCpy_next {v : Byte} {s t : State} : opCpy v s = .next t ↔ t = s.setP (compareFlags s.y v s.p) := by
  simp only [opCpy, next_eq_next]
@[simp] theorem opAnd_next {v : Byte} {s t : State} : opAnd v s = .next t ↔ t = s.loadA (s.a &&& v) := by simp only [opAnd, next_eq_next]
@[simp] theorem opOra_next {v : Byte} {s t : State} : opOra v s = .next t ↔ t = s.loadA (s.a ||| v) := by simp only [opOra, next_eq_next]
@[simp] theorem opEor_next {v : Byte} {s t : State} : opEor v s = .next t ↔ t = s.loadA (s.a ^^^ v) := by simp only [opEor, next_eq_next]
@[simp] theorem opBit_next {v : Byte} {s t : State} : opBit v s = .next t ↔ t = s.setP (bitFlags s.a v s.p) := by
  simp only [opBit, next_eq_next]

theorem opAdc_next {v : Byte} {s t : State} :
    opAdc v s = .next t ↔ s.bcdRefused v = false ∧ t = s.setAP (adcResult s.a v s.p) := by
  unfold opAdc; split
  · simp_all
  · simp_all; exact eq_comm

theorem opSbc_next {v : Byte} {s t : State} :
    opSbc v s = .next t ↔ s.bcdRefused v = false ∧ t = s.setAP (sbcResult s.a v s.p) := by
  unfold opSbc; split
  · simp_all
  · simp_all; exact eq_comm

/-! ### The write of a read-modify-write instruction -/

/-- The fields a read-modify-write write leaves. -/
theorem rmwWrite_frame (s : State) (ea : Addr) (v v' : Byte) :
    ∃ ram io ddr data, s.rmwWrite ea v v' = { s with ram := ram, ioLog := io, portDDR := ddr, portDATA := data } := by
  unfold State.rmwWrite
  split <;> exact ⟨_, _, _, _, rfl⟩

/-- A read-modify-write write changes no RAM byte at another address. -/
theorem rmwWrite_read_other (s : State) {ea : Addr} {b : Nat} (v v' : Byte) (hb : b ≠ ea.toNat) :
    (s.rmwWrite ea v v').ram.read b = s.ram.read b := by
  unfold State.rmwWrite
  split
  · exact ramAfterWrite_read_other s v' hb
  · rw [memWrite_ram, ramAfterWrite_read_other _ v' hb, memWrite_ram, ramAfterWrite_read_other _ v hb]

/-- A read-modify-write write touches the port only at 0x0000 and 0x0001. -/
theorem rmwWrite_port (s : State) {ea : Addr} (v v' : Byte) :
    (s.rmwWrite ea v v').portDDR = (if ea = 0x0000#16 then v' else s.portDDR) ∧
    (s.rmwWrite ea v v').portDATA = (if ea = 0x0001#16 then v' else s.portDATA) := by
  unfold State.rmwWrite
  split <;> (constructor <;> simp only [memWrite_portDDR, memWrite_portDATA] <;> split <;> rfl)

/-- Under the C64 map no read-modify-write write is invalid (R67). -/
theorem rmwInvalid_c64 {s : State} (h : s.cfg.busMap = .c64) (ea : Addr) (v v' : Byte) : s.rmwInvalid ea v v' = false := by
  unfold State.rmwInvalid
  split
  · exact bankWriteInvalid_c64 h _ _
  · rw [bankWriteInvalid_c64 h, bankWriteInvalid_c64 (s := s.memWrite ea v) h]; rfl

/-! ### The fields a read-modify-write write leaves -/

@[simp] theorem rmwWrite_a (s : State) (ea : Addr) (v v' : Byte) : (s.rmwWrite ea v v').a = s.a := by
  obtain ⟨_, _, _, _, h⟩ := rmwWrite_frame s ea v v'; rw [h]
@[simp] theorem rmwWrite_x (s : State) (ea : Addr) (v v' : Byte) : (s.rmwWrite ea v v').x = s.x := by
  obtain ⟨_, _, _, _, h⟩ := rmwWrite_frame s ea v v'; rw [h]
@[simp] theorem rmwWrite_y (s : State) (ea : Addr) (v v' : Byte) : (s.rmwWrite ea v v').y = s.y := by
  obtain ⟨_, _, _, _, h⟩ := rmwWrite_frame s ea v v'; rw [h]
@[simp] theorem rmwWrite_sp (s : State) (ea : Addr) (v v' : Byte) : (s.rmwWrite ea v v').sp = s.sp := by
  obtain ⟨_, _, _, _, h⟩ := rmwWrite_frame s ea v v'; rw [h]
@[simp] theorem rmwWrite_pc (s : State) (ea : Addr) (v v' : Byte) : (s.rmwWrite ea v v').pc = s.pc := by
  obtain ⟨_, _, _, _, h⟩ := rmwWrite_frame s ea v v'; rw [h]
@[simp] theorem rmwWrite_p (s : State) (ea : Addr) (v v' : Byte) : (s.rmwWrite ea v v').p = s.p := by
  obtain ⟨_, _, _, _, h⟩ := rmwWrite_frame s ea v v'; rw [h]
@[simp] theorem rmwWrite_nmiPending (s : State) (ea : Addr) (v v' : Byte) : (s.rmwWrite ea v v').nmiPending = s.nmiPending := by
  obtain ⟨_, _, _, _, h⟩ := rmwWrite_frame s ea v v'; rw [h]
@[simp] theorem rmwWrite_irqPending (s : State) (ea : Addr) (v v' : Byte) : (s.rmwWrite ea v v').irqPending = s.irqPending := by
  obtain ⟨_, _, _, _, h⟩ := rmwWrite_frame s ea v v'; rw [h]
@[simp] theorem rmwWrite_cycles (s : State) (ea : Addr) (v v' : Byte) : (s.rmwWrite ea v v').cycles = s.cycles := by
  obtain ⟨_, _, _, _, h⟩ := rmwWrite_frame s ea v v'; rw [h]
@[simp] theorem rmwWrite_halted (s : State) (ea : Addr) (v v' : Byte) : (s.rmwWrite ea v v').halted = s.halted := by
  obtain ⟨_, _, _, _, h⟩ := rmwWrite_frame s ea v v'; rw [h]
@[simp] theorem rmwWrite_lastWasService (s : State) (ea : Addr) (v v' : Byte) : (s.rmwWrite ea v v').lastWasService = s.lastWasService := by
  obtain ⟨_, _, _, _, h⟩ := rmwWrite_frame s ea v v'; rw [h]
@[simp] theorem rmwWrite_iAtLastBoundary (s : State) (ea : Addr) (v v' : Byte) : (s.rmwWrite ea v v').iAtLastBoundary = s.iAtLastBoundary := by
  obtain ⟨_, _, _, _, h⟩ := rmwWrite_frame s ea v v'; rw [h]
@[simp] theorem rmwWrite_lastWasMaskOp (s : State) (ea : Addr) (v v' : Byte) : (s.rmwWrite ea v v').lastWasMaskOp = s.lastWasMaskOp := by
  obtain ⟨_, _, _, _, h⟩ := rmwWrite_frame s ea v v'; rw [h]
@[simp] theorem rmwWrite_draws (s : State) (ea : Addr) (v v' : Byte) : (s.rmwWrite ea v v').draws = s.draws := by
  obtain ⟨_, _, _, _, h⟩ := rmwWrite_frame s ea v v'; rw [h]
@[simp] theorem rmwWrite_cfg (s : State) (ea : Addr) (v v' : Byte) : (s.rmwWrite ea v v').cfg = s.cfg := by
  obtain ⟨_, _, _, _, h⟩ := rmwWrite_frame s ea v v'; rw [h]

end Sys2Proof.Machine
end

