-- ==== Sys2Proof/Laws/Exec.lean ====
section
/-! SUPPORT. Every instruction by its access class (40_addressing_modes.md R126): the operation of its mnemonic, and the shared form
that `exec` runs it through. A proof over the 151 instructions splits on the class, not on the constructor. -/

namespace Sys2Proof.Machine

/-- The operation of a read-class mnemonic. -/
def readOp : Mnemonic → Option (Byte → State → Result)
  | .LDA => some opLda
  | .LDX => some opLdx
  | .LDY => some opLdy
  | .ADC => some opAdc
  | .SBC => some opSbc
  | .CMP => some opCmp
  | .CPX => some opCpx
  | .CPY => some opCpy
  | .AND => some opAnd
  | .ORA => some opOra
  | .EOR => some opEor
  | .BIT => some opBit
  | _ => none

/-- The register of a write-class mnemonic. -/
def storeOp : Mnemonic → Option (State → Byte)
  | .STA => some State.a
  | .STX => some State.x
  | .STY => some State.y
  | _ => none

/-- The function of a read-modify-write mnemonic. -/
def modifyOp : Mnemonic → Option (Byte → Flags → Byte × Flags)
  | .ASL => some aslResult
  | .LSR => some lsrResult
  | .ROL => some rolResult
  | .ROR => some rorResult
  | .INC => some incResult
  | .DEC => some decResult
  | _ => none

/-- The condition of a branch mnemonic. -/
def branchOp : Mnemonic → Option (Flags → Bool)
  | .BCC => some fun p => !p.c
  | .BCS => some Flags.c
  | .BEQ => some Flags.z
  | .BNE => some fun p => !p.z
  | .BMI => some Flags.n
  | .BPL => some fun p => !p.n
  | .BVC => some fun p => !p.v
  | .BVS => some Flags.v
  | _ => none

/-- What `exec` runs an instruction through, by its class. -/
inductive ExecClass (i : Instr) : Prop where
  | imm (b : Byte) (k : Byte → State → Result) (hf : i.form = .imm b) (hk : readOp i.mnemonic = some k)
      (hc : i.baseCycles = 2 ∧ i.pagePenalty = false) (he : ∀ s, exec i s = immInstr b k s)
  | read (m : MemForm) (k : Byte → State → Result) (hf : i.form = .mem m) (hk : readOp i.mnemonic = some k)
      (hp : i.pagePenalty = indexes16 m) (he : ∀ s, exec i s = readInstr m i.baseCycles k s)
  | write (m : MemForm) (r : State → Byte) (hf : i.form = .mem m) (hk : storeOp i.mnemonic = some r)
      (hp : i.pagePenalty = false) (he : ∀ s, exec i s = writeInstr i.opcode m i.baseCycles (r s) s)
  | modify (m : MemForm) (f : Byte → Flags → Byte × Flags) (hf : i.form = .mem m) (hk : modifyOp i.mnemonic = some f)
      (hp : i.pagePenalty = false) (hn : ∀ s : State, s.pointerOf m = none)
      (he : ∀ s, exec i s = rmwInstr i.opcode m i.baseCycles f s)
  | acc (f : Byte → Flags → Byte × Flags) (hf : i.form = .acc) (hk : modifyOp i.mnemonic = some f) (hc : i.baseCycles = 2)
      (he : ∀ s, exec i s = accInstr f s)
  | branch (b : Byte) (c : Flags → Bool) (hf : i.form = .rel b) (hk : branchOp i.mnemonic = some c) (hc : i.baseCycles = 2)
      (he : ∀ s, exec i s = branchInstr (c s.p) b s)
  | jump (h : (∃ w, i = .jsr w) ∨ (∃ w, i = .jmpAbs w) ∨ ∃ w, i = .jmpInd w)
  | implied (h : i.form = .imp)

theorem exec_class (i : Instr) : ExecClass i := by
  cases i <;>
    first
    | exact .implied rfl
    | exact .imm _ _ rfl rfl ⟨rfl, rfl⟩ fun _ => rfl
    | exact .read _ _ rfl rfl rfl fun _ => rfl
    | exact .write _ _ rfl rfl rfl fun _ => rfl
    | exact .modify _ _ rfl rfl rfl (fun _ => rfl) fun _ => rfl
    | exact .acc _ rfl rfl rfl fun _ => rfl
    | exact .branch _ _ rfl rfl rfl fun _ => rfl
    | exact .jump (.inl ⟨_, rfl⟩)
    | exact .jump (.inr (.inl ⟨_, rfl⟩))
    | exact .jump (.inr (.inr ⟨_, rfl⟩))

/-- The 25 implied instructions. -/
theorem implied_cases {i : Instr} (h : i.form = .imp) :
    i ∈ [.tax, .tay, .txa, .tya, .tsx, .txs, .pha, .php, .pla, .plp, .inx, .iny, .dex, .dey, .rts, .rti, .brk, .clc, .sec, .cli,
      .sei, .cld, .sed, .clv, .nop] := by
  cases i <;> first | (simp only [Instr.form, Instr.descriptor, reduceCtorEq] at h; done) | simp

/-- An operation of the read class, where it answers a next state, leaves every field but A, X, Y and P. -/
theorem readOp_next {m : Mnemonic} {k : Byte → State → Result} (h : readOp m = some k) {v : Byte} {s t : State}
    (hk : k v s = .next t) : ∃ a x y p, t = { s with a := a, x := x, y := y, p := p } := by
  cases m <;> simp only [readOp, Option.some.injEq, reduceCtorEq] at h <;> subst h <;>
    simp only [opLda_next, opLdx_next, opLdy_next, opCmp_next, opCpx_next, opCpy_next, opAnd_next, opOra_next, opEor_next,
      opBit_next, opAdc_next, opSbc_next] at hk
  all_goals first
    | exact ⟨_, _, _, _, hk⟩
    | exact ⟨_, _, _, _, hk.2⟩

/-- An operation of the read class refuses only a byte that is not BCD (R176). -/
theorem readOp_refused {m : Mnemonic} {k : Byte → State → Result} (h : readOp m = some k) {v : Byte} {s : State} {r : Refusal}
    (hk : k v s = .refused r) : r = .invalidBcd s.a v := by
  cases m <;> simp only [readOp, Option.some.injEq, reduceCtorEq] at h <;> subst h
  all_goals first
    | cases hk
    | (unfold opAdc at hk; split at hk <;> cases hk; rfl)
    | (unfold opSbc at hk; split at hk <;> cases hk; rfl)

/-- An instruction whose pointer is refused is refused, whatever it does (R127, R284). -/
theorem exec_of_pointerRefused {i : Instr} {m : MemForm} {s : State} {z : Byte} (hm : i.form = .mem m)
    (h : s.pointerRefused m = some z) : exec i s = .refused (.ioPointerUnderDummy z) := by
  rcases exec_class i with ⟨_, _, hf, -, -, -⟩ | ⟨_, _, hf, -, -, he⟩ | ⟨_, _, hf, -, -, he⟩ | ⟨_, _, hf, -, -, -, he⟩ |
    ⟨_, hf, -, -, -⟩ | ⟨_, _, hf, -, -, -⟩ | ⟨⟨_, rfl⟩ | ⟨_, rfl⟩ | ⟨_, rfl⟩⟩ | hf
  · rw [hm] at hf; cases hf
  · rw [hm] at hf; cases hf; rw [he, readInstr_refused]; exact .inl ⟨z, h, rfl⟩
  · rw [hm] at hf; cases hf; rw [he, writeInstr_refused]; exact ⟨z, h, rfl⟩
  · rw [hm] at hf; cases hf; rw [he, rmwInstr_refused]; exact ⟨z, h, rfl⟩
  · rw [hm] at hf; cases hf
  · rw [hm] at hf; cases hf
  · cases hm; rw [pointerRefused_of_no_pointer s rfl] at h; cases h
  · cases hm; rw [pointerRefused_of_no_pointer s rfl] at h; cases h
  · cases hm
  · rw [hm] at hf; cases hf

/-- A branch is taken when `branchTaken` says so. -/
theorem exec_branch {i : Instr} {b : Byte} (h : i.form = .rel b) (s : State) :
    exec i s = branchInstr (branchTaken i.mnemonic s.p) b s := by
  rcases exec_class i with ⟨_, _, hf, -, -, -⟩ | ⟨_, _, hf, -, -, -⟩ | ⟨_, _, hf, -, -, -⟩ | ⟨_, _, hf, -, -, -, -⟩ |
    ⟨_, hf, -, -, -⟩ | ⟨_, c, hf, hk, -, he⟩ | ⟨⟨_, rfl⟩ | ⟨_, rfl⟩ | ⟨_, rfl⟩⟩ | hf
  on_goal 6 =>
    rw [h] at hf; cases hf; rw [he]; congr 1
    cases hm : i.mnemonic <;> simp only [hm, branchOp, Option.some.injEq, reduceCtorEq] at hk <;> subst hk <;> rfl
  all_goals first
    | (rw [h] at hf; cases hf; done)
    | (cases h; done)

/-- All that `exec` refuses: a refused pointer, and a byte that is not BCD (R284). -/
theorem exec_refused {i : Instr} {s : State} {r : Refusal} (h : exec i s = .refused r) :
    (∃ m z, i.form = .mem m ∧ s.pointerRefused m = some z ∧ r = .ioPointerUnderDummy z) ∨ ∃ a v, r = .invalidBcd a v := by
  rcases exec_class i with ⟨b, k, hf, hk, -, he⟩ | ⟨m, k, hf, hk, -, he⟩ | ⟨m, _, hf, -, -, he⟩ | ⟨m, f, hf, -, -, -, he⟩ |
    ⟨f, hf, -, -, he⟩ | ⟨b, c, hf, -, -, he⟩ | ⟨⟨w, rfl⟩ | ⟨w, rfl⟩ | ⟨w, rfl⟩⟩ | hf
  · rw [he] at h
    exact .inr ⟨_, _, readOp_refused hk h⟩
  · rw [he, readInstr_refused] at h
    rcases h with ⟨z, hz, hr⟩ | ⟨-, h⟩
    · exact .inl ⟨m, z, hf, hz, hr⟩
    · exact .inr ⟨_, _, readOp_refused hk h⟩
  · rw [he, writeInstr_refused] at h
    obtain ⟨z, hz, hr⟩ := h
    exact .inl ⟨m, z, hf, hz, hr⟩
  · rw [he, rmwInstr_refused] at h
    obtain ⟨z, hz, hr⟩ := h
    exact .inl ⟨m, z, hf, hz, hr⟩
  · rw [he] at h; cases h
  · rw [he] at h; unfold branchInstr at h; split at h <;> cases h
  · cases h
  · cases h
  · cases h
  · have hi := implied_cases hf
    simp only [List.mem_cons, List.not_mem_nil, or_false] at hi
    rcases hi with rfl | rfl | rfl | rfl | rfl | rfl | rfl | rfl | rfl | rfl | rfl | rfl | rfl | rfl | rfl | rfl | rfl | rfl |
      rfl | rfl | rfl | rfl | rfl | rfl | rfl <;> cases h

/-- An instruction refuses a pointer exactly when its mode has one that is refused (R127, R284). -/
theorem exec_refused_pointer {i : Instr} {s : State} {z : Byte} :
    exec i s = .refused (.ioPointerUnderDummy z) ↔ ∃ m, i.form = .mem m ∧ s.pointerRefused m = some z := by
  refine ⟨fun h => ?_, fun ⟨m, hm, h⟩ => exec_of_pointerRefused hm h⟩
  rcases exec_refused h with ⟨m, w, hf, hw, e⟩ | ⟨_, _, e⟩
  · cases e; exact ⟨m, hf, hw⟩
  · cases e

/-- No instruction refuses a fetch: its bytes are fetched before it runs (R110). -/
theorem exec_ne_refused_fetch (i : Instr) (s : State) (a : Addr) : exec i s ≠ .refused (.ioFetchUnderDummy a) := by
  intro h
  rcases exec_refused h with ⟨_, _, _, _, e⟩ | ⟨_, _, e⟩ <;> cases e

end Sys2Proof.Machine
end

