-- ==== Sys2Proof/Laws/Flags.lean ====
section
/-! SUPPORT. The flag computations as arithmetic: bit 7 as a comparison, the overflow expressions as conditions on signs, the shifts
as doubling and halving. -/

namespace Sys2Proof.Machine

theorem getLsbD_seven (v : Byte) : v.getLsbD 7 = decide (128 ≤ v.toNat) := by
  revert v; decide +kernel

theorem getLsbD_six (v : Byte) : v.getLsbD 6 = decide (64 ≤ v.toNat % 128) := by
  revert v; decide +kernel

theorem getLsbD_zero (v : Byte) : v.getLsbD 0 = decide (v.toNat % 2 = 1) := by
  revert v; decide +kernel

theorem eq_zero_iff (v : Byte) : (v == 0x00#8) = decide (v.toNat = 0) := by
  revert v; decide +kernel

theorem sign_mask (v : Byte) : ((v &&& 0x80#8) != 0x00#8) = v.getLsbD 7 := by
  revert v; decide +kernel

/-- N and Z as R30 says them. -/
theorem setNZ_eq (p : Flags) (r : Byte) :
    p.setNZ r = { p with n := decide (128 ≤ r.toNat), z := decide (r.toNat = 0) } := by
  simp only [Flags.setNZ, getLsbD_seven, eq_zero_iff]

/-- The operands have the same sign and the result's sign differs (R171, R172). -/
theorem addOverflow_eq (a m r : Byte) :
    addOverflow a m r =
      decide ((128 ≤ a.toNat ↔ 128 ≤ m.toNat) ∧ ¬ (128 ≤ a.toNat ↔ 128 ≤ r.toNat)) := by
  unfold addOverflow
  rw [sign_mask]
  simp only [BitVec.getLsbD_and, BitVec.getLsbD_not, BitVec.getLsbD_xor]
  simp only [getLsbD_seven]
  by_cases h1 : 128 ≤ a.toNat <;> by_cases h2 : 128 ≤ m.toNat <;> by_cases h3 : 128 ≤ r.toNat <;> simp [h1, h2, h3]

/-- The operands have different signs and the result's sign differs from A's (R174, R175). -/
theorem subOverflow_eq (a m r : Byte) :
    subOverflow a m r =
      decide (¬ (128 ≤ a.toNat ↔ 128 ≤ m.toNat) ∧ ¬ (128 ≤ a.toNat ↔ 128 ≤ r.toNat)) := by
  unfold subOverflow
  rw [sign_mask]
  simp only [BitVec.getLsbD_and, BitVec.getLsbD_xor]
  simp only [getLsbD_seven]
  by_cases h1 : 128 ≤ a.toNat <;> by_cases h2 : 128 ≤ m.toNat <;> by_cases h3 : 128 ≤ r.toNat <;> simp [h1, h2, h3]

theorem toInt_eq (v : Byte) : v.toInt = if 128 ≤ v.toNat then (v.toNat : Int) - 256 else v.toNat := by
  rw [BitVec.toInt_eq_toNat_cond]
  split <;> split <;> omega

theorem complement_toNat (m : Byte) : (m ^^^ 0xFF#8).toNat = 255 - m.toNat := by
  revert m; decide +kernel

end Sys2Proof.Machine
end

