-- ==== Sys2Proof/Laws/PerInstr.lean ====
section
/-! SUPPORT. Facts about an instruction as syntax, one lemma per constructor. -/

namespace Sys2Proof.Laws.Encoding

/-- The decoder's shape of the instruction's opcode asks for exactly the operand bytes that the encoder writes (R91). -/
def Statement (i : Instr) : Prop := (shapeOf i.opcode).map Shape.length = some (1 + i.form.bytes.length)

/-- The statement from the opcode `op` and the length `n` that the table of R98 gives the instruction. -/
theorem of_row {i : Instr} (op : Byte) (n : Nat) (h : (shapeOf op).map Shape.length = some n) (ho : i.opcode = op)
    (hn : 1 + i.form.bytes.length = n) : Statement i := by
  rw [Statement, ho, hn, h]

theorem brk : Statement .brk := of_row 0x00#8 1 rfl rfl rfl
theorem oraIndx (v : Byte) : Statement (.oraIndx v) := of_row 0x01#8 2 rfl rfl rfl
theorem oraZp (v : Byte) : Statement (.oraZp v) := of_row 0x05#8 2 rfl rfl rfl
theorem aslZp (v : Byte) : Statement (.aslZp v) := of_row 0x06#8 2 rfl rfl rfl
theorem php : Statement .php := of_row 0x08#8 1 rfl rfl rfl
theorem oraImm (v : Byte) : Statement (.oraImm v) := of_row 0x09#8 2 rfl rfl rfl
theorem aslAcc : Statement .aslAcc := of_row 0x0A#8 1 rfl rfl rfl
theorem oraAbs (v : Addr) : Statement (.oraAbs v) := of_row 0x0D#8 3 rfl rfl rfl
theorem aslAbs (v : Addr) : Statement (.aslAbs v) := of_row 0x0E#8 3 rfl rfl rfl
theorem bpl (v : Byte) : Statement (.bpl v) := of_row 0x10#8 2 rfl rfl rfl
theorem oraIndy (v : Byte) : Statement (.oraIndy v) := of_row 0x11#8 2 rfl rfl rfl
theorem oraZpx (v : Byte) : Statement (.oraZpx v) := of_row 0x15#8 2 rfl rfl rfl
theorem aslZpx (v : Byte) : Statement (.aslZpx v) := of_row 0x16#8 2 rfl rfl rfl
theorem clc : Statement .clc := of_row 0x18#8 1 rfl rfl rfl
theorem oraAbsy (v : Addr) : Statement (.oraAbsy v) := of_row 0x19#8 3 rfl rfl rfl
theorem oraAbsx (v : Addr) : Statement (.oraAbsx v) := of_row 0x1D#8 3 rfl rfl rfl
theorem aslAbsx (v : Addr) : Statement (.aslAbsx v) := of_row 0x1E#8 3 rfl rfl rfl
theorem jsr (v : Addr) : Statement (.jsr v) := of_row 0x20#8 3 rfl rfl rfl
theorem andIndx (v : Byte) : Statement (.andIndx v) := of_row 0x21#8 2 rfl rfl rfl
theorem bitZp (v : Byte) : Statement (.bitZp v) := of_row 0x24#8 2 rfl rfl rfl
theorem andZp (v : Byte) : Statement (.andZp v) := of_row 0x25#8 2 rfl rfl rfl
theorem rolZp (v : Byte) : Statement (.rolZp v) := of_row 0x26#8 2 rfl rfl rfl
theorem plp : Statement .plp := of_row 0x28#8 1 rfl rfl rfl
theorem andImm (v : Byte) : Statement (.andImm v) := of_row 0x29#8 2 rfl rfl rfl
theorem rolAcc : Statement .rolAcc := of_row 0x2A#8 1 rfl rfl rfl
theorem bitAbs (v : Addr) : Statement (.bitAbs v) := of_row 0x2C#8 3 rfl rfl rfl
theorem andAbs (v : Addr) : Statement (.andAbs v) := of_row 0x2D#8 3 rfl rfl rfl
theorem rolAbs (v : Addr) : Statement (.rolAbs v) := of_row 0x2E#8 3 rfl rfl rfl
theorem bmi (v : Byte) : Statement (.bmi v) := of_row 0x30#8 2 rfl rfl rfl
theorem andIndy (v : Byte) : Statement (.andIndy v) := of_row 0x31#8 2 rfl rfl rfl
theorem andZpx (v : Byte) : Statement (.andZpx v) := of_row 0x35#8 2 rfl rfl rfl
theorem rolZpx (v : Byte) : Statement (.rolZpx v) := of_row 0x36#8 2 rfl rfl rfl
theorem sec : Statement .sec := of_row 0x38#8 1 rfl rfl rfl
theorem andAbsy (v : Addr) : Statement (.andAbsy v) := of_row 0x39#8 3 rfl rfl rfl
theorem andAbsx (v : Addr) : Statement (.andAbsx v) := of_row 0x3D#8 3 rfl rfl rfl
theorem rolAbsx (v : Addr) : Statement (.rolAbsx v) := of_row 0x3E#8 3 rfl rfl rfl
theorem rti : Statement .rti := of_row 0x40#8 1 rfl rfl rfl
theorem eorIndx (v : Byte) : Statement (.eorIndx v) := of_row 0x41#8 2 rfl rfl rfl
theorem eorZp (v : Byte) : Statement (.eorZp v) := of_row 0x45#8 2 rfl rfl rfl
theorem lsrZp (v : Byte) : Statement (.lsrZp v) := of_row 0x46#8 2 rfl rfl rfl
theorem pha : Statement .pha := of_row 0x48#8 1 rfl rfl rfl
theorem eorImm (v : Byte) : Statement (.eorImm v) := of_row 0x49#8 2 rfl rfl rfl
theorem lsrAcc : Statement .lsrAcc := of_row 0x4A#8 1 rfl rfl rfl
theorem jmpAbs (v : Addr) : Statement (.jmpAbs v) := of_row 0x4C#8 3 rfl rfl rfl
theorem eorAbs (v : Addr) : Statement (.eorAbs v) := of_row 0x4D#8 3 rfl rfl rfl
theorem lsrAbs (v : Addr) : Statement (.lsrAbs v) := of_row 0x4E#8 3 rfl rfl rfl
theorem bvc (v : Byte) : Statement (.bvc v) := of_row 0x50#8 2 rfl rfl rfl
theorem eorIndy (v : Byte) : Statement (.eorIndy v) := of_row 0x51#8 2 rfl rfl rfl
theorem eorZpx (v : Byte) : Statement (.eorZpx v) := of_row 0x55#8 2 rfl rfl rfl
theorem lsrZpx (v : Byte) : Statement (.lsrZpx v) := of_row 0x56#8 2 rfl rfl rfl
theorem cli : Statement .cli := of_row 0x58#8 1 rfl rfl rfl
theorem eorAbsy (v : Addr) : Statement (.eorAbsy v) := of_row 0x59#8 3 rfl rfl rfl
theorem eorAbsx (v : Addr) : Statement (.eorAbsx v) := of_row 0x5D#8 3 rfl rfl rfl
theorem lsrAbsx (v : Addr) : Statement (.lsrAbsx v) := of_row 0x5E#8 3 rfl rfl rfl
theorem rts : Statement .rts := of_row 0x60#8 1 rfl rfl rfl
theorem adcIndx (v : Byte) : Statement (.adcIndx v) := of_row 0x61#8 2 rfl rfl rfl
theorem adcZp (v : Byte) : Statement (.adcZp v) := of_row 0x65#8 2 rfl rfl rfl
theorem rorZp (v : Byte) : Statement (.rorZp v) := of_row 0x66#8 2 rfl rfl rfl
theorem pla : Statement .pla := of_row 0x68#8 1 rfl rfl rfl
theorem adcImm (v : Byte) : Statement (.adcImm v) := of_row 0x69#8 2 rfl rfl rfl
theorem rorAcc : Statement .rorAcc := of_row 0x6A#8 1 rfl rfl rfl
theorem jmpInd (v : Addr) : Statement (.jmpInd v) := of_row 0x6C#8 3 rfl rfl rfl
theorem adcAbs (v : Addr) : Statement (.adcAbs v) := of_row 0x6D#8 3 rfl rfl rfl
theorem rorAbs (v : Addr) : Statement (.rorAbs v) := of_row 0x6E#8 3 rfl rfl rfl
theorem bvs (v : Byte) : Statement (.bvs v) := of_row 0x70#8 2 rfl rfl rfl
theorem adcIndy (v : Byte) : Statement (.adcIndy v) := of_row 0x71#8 2 rfl rfl rfl
theorem adcZpx (v : Byte) : Statement (.adcZpx v) := of_row 0x75#8 2 rfl rfl rfl
theorem rorZpx (v : Byte) : Statement (.rorZpx v) := of_row 0x76#8 2 rfl rfl rfl
theorem sei : Statement .sei := of_row 0x78#8 1 rfl rfl rfl
theorem adcAbsy (v : Addr) : Statement (.adcAbsy v) := of_row 0x79#8 3 rfl rfl rfl
theorem adcAbsx (v : Addr) : Statement (.adcAbsx v) := of_row 0x7D#8 3 rfl rfl rfl
theorem rorAbsx (v : Addr) : Statement (.rorAbsx v) := of_row 0x7E#8 3 rfl rfl rfl
theorem staIndx (v : Byte) : Statement (.staIndx v) := of_row 0x81#8 2 rfl rfl rfl
theorem styZp (v : Byte) : Statement (.styZp v) := of_row 0x84#8 2 rfl rfl rfl
theorem staZp (v : Byte) : Statement (.staZp v) := of_row 0x85#8 2 rfl rfl rfl
theorem stxZp (v : Byte) : Statement (.stxZp v) := of_row 0x86#8 2 rfl rfl rfl
theorem dey : Statement .dey := of_row 0x88#8 1 rfl rfl rfl
theorem txa : Statement .txa := of_row 0x8A#8 1 rfl rfl rfl
theorem styAbs (v : Addr) : Statement (.styAbs v) := of_row 0x8C#8 3 rfl rfl rfl
theorem staAbs (v : Addr) : Statement (.staAbs v) := of_row 0x8D#8 3 rfl rfl rfl
theorem stxAbs (v : Addr) : Statement (.stxAbs v) := of_row 0x8E#8 3 rfl rfl rfl
theorem bcc (v : Byte) : Statement (.bcc v) := of_row 0x90#8 2 rfl rfl rfl
theorem staIndy (v : Byte) : Statement (.staIndy v) := of_row 0x91#8 2 rfl rfl rfl
theorem styZpx (v : Byte) : Statement (.styZpx v) := of_row 0x94#8 2 rfl rfl rfl
theorem staZpx (v : Byte) : Statement (.staZpx v) := of_row 0x95#8 2 rfl rfl rfl
theorem stxZpy (v : Byte) : Statement (.stxZpy v) := of_row 0x96#8 2 rfl rfl rfl
theorem tya : Statement .tya := of_row 0x98#8 1 rfl rfl rfl
theorem staAbsy (v : Addr) : Statement (.staAbsy v) := of_row 0x99#8 3 rfl rfl rfl
theorem txs : Statement .txs := of_row 0x9A#8 1 rfl rfl rfl
theorem staAbsx (v : Addr) : Statement (.staAbsx v) := of_row 0x9D#8 3 rfl rfl rfl
theorem ldyImm (v : Byte) : Statement (.ldyImm v) := of_row 0xA0#8 2 rfl rfl rfl
theorem ldaIndx (v : Byte) : Statement (.ldaIndx v) := of_row 0xA1#8 2 rfl rfl rfl
theorem ldxImm (v : Byte) : Statement (.ldxImm v) := of_row 0xA2#8 2 rfl rfl rfl
theorem ldyZp (v : Byte) : Statement (.ldyZp v) := of_row 0xA4#8 2 rfl rfl rfl
theorem ldaZp (v : Byte) : Statement (.ldaZp v) := of_row 0xA5#8 2 rfl rfl rfl
theorem ldxZp (v : Byte) : Statement (.ldxZp v) := of_row 0xA6#8 2 rfl rfl rfl
theorem tay : Statement .tay := of_row 0xA8#8 1 rfl rfl rfl
theorem ldaImm (v : Byte) : Statement (.ldaImm v) := of_row 0xA9#8 2 rfl rfl rfl
theorem tax : Statement .tax := of_row 0xAA#8 1 rfl rfl rfl
theorem ldyAbs (v : Addr) : Statement (.ldyAbs v) := of_row 0xAC#8 3 rfl rfl rfl
theorem ldaAbs (v : Addr) : Statement (.ldaAbs v) := of_row 0xAD#8 3 rfl rfl rfl
theorem ldxAbs (v : Addr) : Statement (.ldxAbs v) := of_row 0xAE#8 3 rfl rfl rfl
theorem bcs (v : Byte) : Statement (.bcs v) := of_row 0xB0#8 2 rfl rfl rfl
theorem ldaIndy (v : Byte) : Statement (.ldaIndy v) := of_row 0xB1#8 2 rfl rfl rfl
theorem ldyZpx (v : Byte) : Statement (.ldyZpx v) := of_row 0xB4#8 2 rfl rfl rfl
theorem ldaZpx (v : Byte) : Statement (.ldaZpx v) := of_row 0xB5#8 2 rfl rfl rfl
theorem ldxZpy (v : Byte) : Statement (.ldxZpy v) := of_row 0xB6#8 2 rfl rfl rfl
theorem clv : Statement .clv := of_row 0xB8#8 1 rfl rfl rfl
theorem ldaAbsy (v : Addr) : Statement (.ldaAbsy v) := of_row 0xB9#8 3 rfl rfl rfl
theorem tsx : Statement .tsx := of_row 0xBA#8 1 rfl rfl rfl
theorem ldyAbsx (v : Addr) : Statement (.ldyAbsx v) := of_row 0xBC#8 3 rfl rfl rfl
theorem ldaAbsx (v : Addr) : Statement (.ldaAbsx v) := of_row 0xBD#8 3 rfl rfl rfl
theorem ldxAbsy (v : Addr) : Statement (.ldxAbsy v) := of_row 0xBE#8 3 rfl rfl rfl
theorem cpyImm (v : Byte) : Statement (.cpyImm v) := of_row 0xC0#8 2 rfl rfl rfl
theorem cmpIndx (v : Byte) : Statement (.cmpIndx v) := of_row 0xC1#8 2 rfl rfl rfl
theorem cpyZp (v : Byte) : Statement (.cpyZp v) := of_row 0xC4#8 2 rfl rfl rfl
theorem cmpZp (v : Byte) : Statement (.cmpZp v) := of_row 0xC5#8 2 rfl rfl rfl
theorem decZp (v : Byte) : Statement (.decZp v) := of_row 0xC6#8 2 rfl rfl rfl
theorem iny : Statement .iny := of_row 0xC8#8 1 rfl rfl rfl
theorem cmpImm (v : Byte) : Statement (.cmpImm v) := of_row 0xC9#8 2 rfl rfl rfl
theorem dex : Statement .dex := of_row 0xCA#8 1 rfl rfl rfl
theorem cpyAbs (v : Addr) : Statement (.cpyAbs v) := of_row 0xCC#8 3 rfl rfl rfl
theorem cmpAbs (v : Addr) : Statement (.cmpAbs v) := of_row 0xCD#8 3 rfl rfl rfl
theorem decAbs (v : Addr) : Statement (.decAbs v) := of_row 0xCE#8 3 rfl rfl rfl
theorem bne (v : Byte) : Statement (.bne v) := of_row 0xD0#8 2 rfl rfl rfl
theorem cmpIndy (v : Byte) : Statement (.cmpIndy v) := of_row 0xD1#8 2 rfl rfl rfl
theorem cmpZpx (v : Byte) : Statement (.cmpZpx v) := of_row 0xD5#8 2 rfl rfl rfl
theorem decZpx (v : Byte) : Statement (.decZpx v) := of_row 0xD6#8 2 rfl rfl rfl
theorem cld : Statement .cld := of_row 0xD8#8 1 rfl rfl rfl
theorem cmpAbsy (v : Addr) : Statement (.cmpAbsy v) := of_row 0xD9#8 3 rfl rfl rfl
theorem cmpAbsx (v : Addr) : Statement (.cmpAbsx v) := of_row 0xDD#8 3 rfl rfl rfl
theorem decAbsx (v : Addr) : Statement (.decAbsx v) := of_row 0xDE#8 3 rfl rfl rfl
theorem cpxImm (v : Byte) : Statement (.cpxImm v) := of_row 0xE0#8 2 rfl rfl rfl
theorem sbcIndx (v : Byte) : Statement (.sbcIndx v) := of_row 0xE1#8 2 rfl rfl rfl
theorem cpxZp (v : Byte) : Statement (.cpxZp v) := of_row 0xE4#8 2 rfl rfl rfl
theorem sbcZp (v : Byte) : Statement (.sbcZp v) := of_row 0xE5#8 2 rfl rfl rfl
theorem incZp (v : Byte) : Statement (.incZp v) := of_row 0xE6#8 2 rfl rfl rfl
theorem inx : Statement .inx := of_row 0xE8#8 1 rfl rfl rfl
theorem sbcImm (v : Byte) : Statement (.sbcImm v) := of_row 0xE9#8 2 rfl rfl rfl
theorem nop : Statement .nop := of_row 0xEA#8 1 rfl rfl rfl
theorem cpxAbs (v : Addr) : Statement (.cpxAbs v) := of_row 0xEC#8 3 rfl rfl rfl
theorem sbcAbs (v : Addr) : Statement (.sbcAbs v) := of_row 0xED#8 3 rfl rfl rfl
theorem incAbs (v : Addr) : Statement (.incAbs v) := of_row 0xEE#8 3 rfl rfl rfl
theorem beq (v : Byte) : Statement (.beq v) := of_row 0xF0#8 2 rfl rfl rfl
theorem sbcIndy (v : Byte) : Statement (.sbcIndy v) := of_row 0xF1#8 2 rfl rfl rfl
theorem sbcZpx (v : Byte) : Statement (.sbcZpx v) := of_row 0xF5#8 2 rfl rfl rfl
theorem incZpx (v : Byte) : Statement (.incZpx v) := of_row 0xF6#8 2 rfl rfl rfl
theorem sed : Statement .sed := of_row 0xF8#8 1 rfl rfl rfl
theorem sbcAbsy (v : Addr) : Statement (.sbcAbsy v) := of_row 0xF9#8 3 rfl rfl rfl
theorem sbcAbsx (v : Addr) : Statement (.sbcAbsx v) := of_row 0xFD#8 3 rfl rfl rfl
theorem incAbsx (v : Addr) : Statement (.incAbsx v) := of_row 0xFE#8 3 rfl rfl rfl

end Sys2Proof.Laws.Encoding
end

