-- ==== Sys2Proof/Laws/Table.lean ====
section
/-! SUPPORT. The mnemonic, mode and opcode columns of the table of R98 as a list of rows, and that it lists the instructions' and no
other: a question about the opcodes of a mnemonic is decided on the list. -/

namespace Sys2Proof

/-- Opcodes 0x00 to 0x1D. -/
def tableRows0 : List (Mnemonic × AddrMode × Byte) :=
  [(.BRK, .IMP, 0x00#8), (.ORA, .INDX, 0x01#8), (.ORA, .ZP, 0x05#8), (.ASL, .ZP, 0x06#8), (.PHP, .IMP, 0x08#8),
   (.ORA, .IMM, 0x09#8), (.ASL, .ACC, 0x0A#8), (.ORA, .ABS, 0x0D#8), (.ASL, .ABS, 0x0E#8), (.BPL, .REL, 0x10#8),
   (.ORA, .INDY, 0x11#8), (.ORA, .ZPX, 0x15#8), (.ASL, .ZPX, 0x16#8), (.CLC, .IMP, 0x18#8), (.ORA, .ABSY, 0x19#8),
   (.ORA, .ABSX, 0x1D#8)]

theorem tableRows0_sound : ∀ r ∈ tableRows0, ∃ i : Instr, i.mnemonic = r.1 ∧ i.form.mode = r.2.1 ∧ i.opcode = r.2.2 := by
  simp only [tableRows0, List.forall_mem_cons]
  exact
    ⟨⟨.brk, rfl, rfl, rfl⟩, ⟨.oraIndx 0, rfl, rfl, rfl⟩, ⟨.oraZp 0, rfl, rfl, rfl⟩, ⟨.aslZp 0, rfl, rfl, rfl⟩,
      ⟨.php, rfl, rfl, rfl⟩, ⟨.oraImm 0, rfl, rfl, rfl⟩, ⟨.aslAcc, rfl, rfl, rfl⟩, ⟨.oraAbs 0, rfl, rfl, rfl⟩,
      ⟨.aslAbs 0, rfl, rfl, rfl⟩, ⟨.bpl 0, rfl, rfl, rfl⟩, ⟨.oraIndy 0, rfl, rfl, rfl⟩, ⟨.oraZpx 0, rfl, rfl, rfl⟩,
      ⟨.aslZpx 0, rfl, rfl, rfl⟩, ⟨.clc, rfl, rfl, rfl⟩, ⟨.oraAbsy 0, rfl, rfl, rfl⟩, ⟨.oraAbsx 0, rfl, rfl, rfl⟩,
      List.forall_mem_nil _⟩

/-- Opcodes 0x1E to 0x36. -/
def tableRows1 : List (Mnemonic × AddrMode × Byte) :=
  [(.ASL, .ABSX, 0x1E#8), (.JSR, .ABS, 0x20#8), (.AND, .INDX, 0x21#8), (.BIT, .ZP, 0x24#8), (.AND, .ZP, 0x25#8),
   (.ROL, .ZP, 0x26#8), (.PLP, .IMP, 0x28#8), (.AND, .IMM, 0x29#8), (.ROL, .ACC, 0x2A#8), (.BIT, .ABS, 0x2C#8),
   (.AND, .ABS, 0x2D#8), (.ROL, .ABS, 0x2E#8), (.BMI, .REL, 0x30#8), (.AND, .INDY, 0x31#8), (.AND, .ZPX, 0x35#8),
   (.ROL, .ZPX, 0x36#8)]

theorem tableRows1_sound : ∀ r ∈ tableRows1, ∃ i : Instr, i.mnemonic = r.1 ∧ i.form.mode = r.2.1 ∧ i.opcode = r.2.2 := by
  simp only [tableRows1, List.forall_mem_cons]
  exact
    ⟨⟨.aslAbsx 0, rfl, rfl, rfl⟩, ⟨.jsr 0, rfl, rfl, rfl⟩, ⟨.andIndx 0, rfl, rfl, rfl⟩, ⟨.bitZp 0, rfl, rfl, rfl⟩,
      ⟨.andZp 0, rfl, rfl, rfl⟩, ⟨.rolZp 0, rfl, rfl, rfl⟩, ⟨.plp, rfl, rfl, rfl⟩, ⟨.andImm 0, rfl, rfl, rfl⟩,
      ⟨.rolAcc, rfl, rfl, rfl⟩, ⟨.bitAbs 0, rfl, rfl, rfl⟩, ⟨.andAbs 0, rfl, rfl, rfl⟩, ⟨.rolAbs 0, rfl, rfl, rfl⟩,
      ⟨.bmi 0, rfl, rfl, rfl⟩, ⟨.andIndy 0, rfl, rfl, rfl⟩, ⟨.andZpx 0, rfl, rfl, rfl⟩, ⟨.rolZpx 0, rfl, rfl, rfl⟩,
      List.forall_mem_nil _⟩

/-- Opcodes 0x38 to 0x51. -/
def tableRows2 : List (Mnemonic × AddrMode × Byte) :=
  [(.SEC, .IMP, 0x38#8), (.AND, .ABSY, 0x39#8), (.AND, .ABSX, 0x3D#8), (.ROL, .ABSX, 0x3E#8), (.RTI, .IMP, 0x40#8),
   (.EOR, .INDX, 0x41#8), (.EOR, .ZP, 0x45#8), (.LSR, .ZP, 0x46#8), (.PHA, .IMP, 0x48#8), (.EOR, .IMM, 0x49#8),
   (.LSR, .ACC, 0x4A#8), (.JMP, .ABS, 0x4C#8), (.EOR, .ABS, 0x4D#8), (.LSR, .ABS, 0x4E#8), (.BVC, .REL, 0x50#8),
   (.EOR, .INDY, 0x51#8)]

theorem tableRows2_sound : ∀ r ∈ tableRows2, ∃ i : Instr, i.mnemonic = r.1 ∧ i.form.mode = r.2.1 ∧ i.opcode = r.2.2 := by
  simp only [tableRows2, List.forall_mem_cons]
  exact
    ⟨⟨.sec, rfl, rfl, rfl⟩, ⟨.andAbsy 0, rfl, rfl, rfl⟩, ⟨.andAbsx 0, rfl, rfl, rfl⟩, ⟨.rolAbsx 0, rfl, rfl, rfl⟩,
      ⟨.rti, rfl, rfl, rfl⟩, ⟨.eorIndx 0, rfl, rfl, rfl⟩, ⟨.eorZp 0, rfl, rfl, rfl⟩, ⟨.lsrZp 0, rfl, rfl, rfl⟩,
      ⟨.pha, rfl, rfl, rfl⟩, ⟨.eorImm 0, rfl, rfl, rfl⟩, ⟨.lsrAcc, rfl, rfl, rfl⟩, ⟨.jmpAbs 0, rfl, rfl, rfl⟩,
      ⟨.eorAbs 0, rfl, rfl, rfl⟩, ⟨.lsrAbs 0, rfl, rfl, rfl⟩, ⟨.bvc 0, rfl, rfl, rfl⟩, ⟨.eorIndy 0, rfl, rfl, rfl⟩,
      List.forall_mem_nil _⟩

/-- Opcodes 0x55 to 0x6E. -/
def tableRows3 : List (Mnemonic × AddrMode × Byte) :=
  [(.EOR, .ZPX, 0x55#8), (.LSR, .ZPX, 0x56#8), (.CLI, .IMP, 0x58#8), (.EOR, .ABSY, 0x59#8), (.EOR, .ABSX, 0x5D#8),
   (.LSR, .ABSX, 0x5E#8), (.RTS, .IMP, 0x60#8), (.ADC, .INDX, 0x61#8), (.ADC, .ZP, 0x65#8), (.ROR, .ZP, 0x66#8),
   (.PLA, .IMP, 0x68#8), (.ADC, .IMM, 0x69#8), (.ROR, .ACC, 0x6A#8), (.JMP, .IND, 0x6C#8), (.ADC, .ABS, 0x6D#8),
   (.ROR, .ABS, 0x6E#8)]

theorem tableRows3_sound : ∀ r ∈ tableRows3, ∃ i : Instr, i.mnemonic = r.1 ∧ i.form.mode = r.2.1 ∧ i.opcode = r.2.2 := by
  simp only [tableRows3, List.forall_mem_cons]
  exact
    ⟨⟨.eorZpx 0, rfl, rfl, rfl⟩, ⟨.lsrZpx 0, rfl, rfl, rfl⟩, ⟨.cli, rfl, rfl, rfl⟩, ⟨.eorAbsy 0, rfl, rfl, rfl⟩,
      ⟨.eorAbsx 0, rfl, rfl, rfl⟩, ⟨.lsrAbsx 0, rfl, rfl, rfl⟩, ⟨.rts, rfl, rfl, rfl⟩, ⟨.adcIndx 0, rfl, rfl, rfl⟩,
      ⟨.adcZp 0, rfl, rfl, rfl⟩, ⟨.rorZp 0, rfl, rfl, rfl⟩, ⟨.pla, rfl, rfl, rfl⟩, ⟨.adcImm 0, rfl, rfl, rfl⟩,
      ⟨.rorAcc, rfl, rfl, rfl⟩, ⟨.jmpInd 0, rfl, rfl, rfl⟩, ⟨.adcAbs 0, rfl, rfl, rfl⟩, ⟨.rorAbs 0, rfl, rfl, rfl⟩,
      List.forall_mem_nil _⟩

/-- Opcodes 0x70 to 0x8D. -/
def tableRows4 : List (Mnemonic × AddrMode × Byte) :=
  [(.BVS, .REL, 0x70#8), (.ADC, .INDY, 0x71#8), (.ADC, .ZPX, 0x75#8), (.ROR, .ZPX, 0x76#8), (.SEI, .IMP, 0x78#8),
   (.ADC, .ABSY, 0x79#8), (.ADC, .ABSX, 0x7D#8), (.ROR, .ABSX, 0x7E#8), (.STA, .INDX, 0x81#8), (.STY, .ZP, 0x84#8),
   (.STA, .ZP, 0x85#8), (.STX, .ZP, 0x86#8), (.DEY, .IMP, 0x88#8), (.TXA, .IMP, 0x8A#8), (.STY, .ABS, 0x8C#8),
   (.STA, .ABS, 0x8D#8)]

theorem tableRows4_sound : ∀ r ∈ tableRows4, ∃ i : Instr, i.mnemonic = r.1 ∧ i.form.mode = r.2.1 ∧ i.opcode = r.2.2 := by
  simp only [tableRows4, List.forall_mem_cons]
  exact
    ⟨⟨.bvs 0, rfl, rfl, rfl⟩, ⟨.adcIndy 0, rfl, rfl, rfl⟩, ⟨.adcZpx 0, rfl, rfl, rfl⟩, ⟨.rorZpx 0, rfl, rfl, rfl⟩,
      ⟨.sei, rfl, rfl, rfl⟩, ⟨.adcAbsy 0, rfl, rfl, rfl⟩, ⟨.adcAbsx 0, rfl, rfl, rfl⟩, ⟨.rorAbsx 0, rfl, rfl, rfl⟩,
      ⟨.staIndx 0, rfl, rfl, rfl⟩, ⟨.styZp 0, rfl, rfl, rfl⟩, ⟨.staZp 0, rfl, rfl, rfl⟩, ⟨.stxZp 0, rfl, rfl, rfl⟩,
      ⟨.dey, rfl, rfl, rfl⟩, ⟨.txa, rfl, rfl, rfl⟩, ⟨.styAbs 0, rfl, rfl, rfl⟩, ⟨.staAbs 0, rfl, rfl, rfl⟩,
      List.forall_mem_nil _⟩

/-- Opcodes 0x8E to 0xA6. -/
def tableRows5 : List (Mnemonic × AddrMode × Byte) :=
  [(.STX, .ABS, 0x8E#8), (.BCC, .REL, 0x90#8), (.STA, .INDY, 0x91#8), (.STY, .ZPX, 0x94#8), (.STA, .ZPX, 0x95#8),
   (.STX, .ZPY, 0x96#8), (.TYA, .IMP, 0x98#8), (.STA, .ABSY, 0x99#8), (.TXS, .IMP, 0x9A#8), (.STA, .ABSX, 0x9D#8),
   (.LDY, .IMM, 0xA0#8), (.LDA, .INDX, 0xA1#8), (.LDX, .IMM, 0xA2#8), (.LDY, .ZP, 0xA4#8), (.LDA, .ZP, 0xA5#8),
   (.LDX, .ZP, 0xA6#8)]

theorem tableRows5_sound : ∀ r ∈ tableRows5, ∃ i : Instr, i.mnemonic = r.1 ∧ i.form.mode = r.2.1 ∧ i.opcode = r.2.2 := by
  simp only [tableRows5, List.forall_mem_cons]
  exact
    ⟨⟨.stxAbs 0, rfl, rfl, rfl⟩, ⟨.bcc 0, rfl, rfl, rfl⟩, ⟨.staIndy 0, rfl, rfl, rfl⟩, ⟨.styZpx 0, rfl, rfl, rfl⟩,
      ⟨.staZpx 0, rfl, rfl, rfl⟩, ⟨.stxZpy 0, rfl, rfl, rfl⟩, ⟨.tya, rfl, rfl, rfl⟩, ⟨.staAbsy 0, rfl, rfl, rfl⟩,
      ⟨.txs, rfl, rfl, rfl⟩, ⟨.staAbsx 0, rfl, rfl, rfl⟩, ⟨.ldyImm 0, rfl, rfl, rfl⟩, ⟨.ldaIndx 0, rfl, rfl, rfl⟩,
      ⟨.ldxImm 0, rfl, rfl, rfl⟩, ⟨.ldyZp 0, rfl, rfl, rfl⟩, ⟨.ldaZp 0, rfl, rfl, rfl⟩, ⟨.ldxZp 0, rfl, rfl, rfl⟩,
      List.forall_mem_nil _⟩

/-- Opcodes 0xA8 to 0xBD. -/
def tableRows6 : List (Mnemonic × AddrMode × Byte) :=
  [(.TAY, .IMP, 0xA8#8), (.LDA, .IMM, 0xA9#8), (.TAX, .IMP, 0xAA#8), (.LDY, .ABS, 0xAC#8), (.LDA, .ABS, 0xAD#8),
   (.LDX, .ABS, 0xAE#8), (.BCS, .REL, 0xB0#8), (.LDA, .INDY, 0xB1#8), (.LDY, .ZPX, 0xB4#8), (.LDA, .ZPX, 0xB5#8),
   (.LDX, .ZPY, 0xB6#8), (.CLV, .IMP, 0xB8#8), (.LDA, .ABSY, 0xB9#8), (.TSX, .IMP, 0xBA#8), (.LDY, .ABSX, 0xBC#8),
   (.LDA, .ABSX, 0xBD#8)]

theorem tableRows6_sound : ∀ r ∈ tableRows6, ∃ i : Instr, i.mnemonic = r.1 ∧ i.form.mode = r.2.1 ∧ i.opcode = r.2.2 := by
  simp only [tableRows6, List.forall_mem_cons]
  exact
    ⟨⟨.tay, rfl, rfl, rfl⟩, ⟨.ldaImm 0, rfl, rfl, rfl⟩, ⟨.tax, rfl, rfl, rfl⟩, ⟨.ldyAbs 0, rfl, rfl, rfl⟩,
      ⟨.ldaAbs 0, rfl, rfl, rfl⟩, ⟨.ldxAbs 0, rfl, rfl, rfl⟩, ⟨.bcs 0, rfl, rfl, rfl⟩, ⟨.ldaIndy 0, rfl, rfl, rfl⟩,
      ⟨.ldyZpx 0, rfl, rfl, rfl⟩, ⟨.ldaZpx 0, rfl, rfl, rfl⟩, ⟨.ldxZpy 0, rfl, rfl, rfl⟩, ⟨.clv, rfl, rfl, rfl⟩,
      ⟨.ldaAbsy 0, rfl, rfl, rfl⟩, ⟨.tsx, rfl, rfl, rfl⟩, ⟨.ldyAbsx 0, rfl, rfl, rfl⟩, ⟨.ldaAbsx 0, rfl, rfl, rfl⟩,
      List.forall_mem_nil _⟩

/-- Opcodes 0xBE to 0xD6. -/
def tableRows7 : List (Mnemonic × AddrMode × Byte) :=
  [(.LDX, .ABSY, 0xBE#8), (.CPY, .IMM, 0xC0#8), (.CMP, .INDX, 0xC1#8), (.CPY, .ZP, 0xC4#8), (.CMP, .ZP, 0xC5#8),
   (.DEC, .ZP, 0xC6#8), (.INY, .IMP, 0xC8#8), (.CMP, .IMM, 0xC9#8), (.DEX, .IMP, 0xCA#8), (.CPY, .ABS, 0xCC#8),
   (.CMP, .ABS, 0xCD#8), (.DEC, .ABS, 0xCE#8), (.BNE, .REL, 0xD0#8), (.CMP, .INDY, 0xD1#8), (.CMP, .ZPX, 0xD5#8),
   (.DEC, .ZPX, 0xD6#8)]

theorem tableRows7_sound : ∀ r ∈ tableRows7, ∃ i : Instr, i.mnemonic = r.1 ∧ i.form.mode = r.2.1 ∧ i.opcode = r.2.2 := by
  simp only [tableRows7, List.forall_mem_cons]
  exact
    ⟨⟨.ldxAbsy 0, rfl, rfl, rfl⟩, ⟨.cpyImm 0, rfl, rfl, rfl⟩, ⟨.cmpIndx 0, rfl, rfl, rfl⟩, ⟨.cpyZp 0, rfl, rfl, rfl⟩,
      ⟨.cmpZp 0, rfl, rfl, rfl⟩, ⟨.decZp 0, rfl, rfl, rfl⟩, ⟨.iny, rfl, rfl, rfl⟩, ⟨.cmpImm 0, rfl, rfl, rfl⟩,
      ⟨.dex, rfl, rfl, rfl⟩, ⟨.cpyAbs 0, rfl, rfl, rfl⟩, ⟨.cmpAbs 0, rfl, rfl, rfl⟩, ⟨.decAbs 0, rfl, rfl, rfl⟩,
      ⟨.bne 0, rfl, rfl, rfl⟩, ⟨.cmpIndy 0, rfl, rfl, rfl⟩, ⟨.cmpZpx 0, rfl, rfl, rfl⟩, ⟨.decZpx 0, rfl, rfl, rfl⟩,
      List.forall_mem_nil _⟩

/-- Opcodes 0xD8 to 0xF0. -/
def tableRows8 : List (Mnemonic × AddrMode × Byte) :=
  [(.CLD, .IMP, 0xD8#8), (.CMP, .ABSY, 0xD9#8), (.CMP, .ABSX, 0xDD#8), (.DEC, .ABSX, 0xDE#8), (.CPX, .IMM, 0xE0#8),
   (.SBC, .INDX, 0xE1#8), (.CPX, .ZP, 0xE4#8), (.SBC, .ZP, 0xE5#8), (.INC, .ZP, 0xE6#8), (.INX, .IMP, 0xE8#8),
   (.SBC, .IMM, 0xE9#8), (.NOP, .IMP, 0xEA#8), (.CPX, .ABS, 0xEC#8), (.SBC, .ABS, 0xED#8), (.INC, .ABS, 0xEE#8),
   (.BEQ, .REL, 0xF0#8)]

theorem tableRows8_sound : ∀ r ∈ tableRows8, ∃ i : Instr, i.mnemonic = r.1 ∧ i.form.mode = r.2.1 ∧ i.opcode = r.2.2 := by
  simp only [tableRows8, List.forall_mem_cons]
  exact
    ⟨⟨.cld, rfl, rfl, rfl⟩, ⟨.cmpAbsy 0, rfl, rfl, rfl⟩, ⟨.cmpAbsx 0, rfl, rfl, rfl⟩, ⟨.decAbsx 0, rfl, rfl, rfl⟩,
      ⟨.cpxImm 0, rfl, rfl, rfl⟩, ⟨.sbcIndx 0, rfl, rfl, rfl⟩, ⟨.cpxZp 0, rfl, rfl, rfl⟩, ⟨.sbcZp 0, rfl, rfl, rfl⟩,
      ⟨.incZp 0, rfl, rfl, rfl⟩, ⟨.inx, rfl, rfl, rfl⟩, ⟨.sbcImm 0, rfl, rfl, rfl⟩, ⟨.nop, rfl, rfl, rfl⟩,
      ⟨.cpxAbs 0, rfl, rfl, rfl⟩, ⟨.sbcAbs 0, rfl, rfl, rfl⟩, ⟨.incAbs 0, rfl, rfl, rfl⟩, ⟨.beq 0, rfl, rfl, rfl⟩,
      List.forall_mem_nil _⟩

/-- Opcodes 0xF1 to 0xFE. -/
def tableRows9 : List (Mnemonic × AddrMode × Byte) :=
  [(.SBC, .INDY, 0xF1#8), (.SBC, .ZPX, 0xF5#8), (.INC, .ZPX, 0xF6#8), (.SED, .IMP, 0xF8#8), (.SBC, .ABSY, 0xF9#8),
   (.SBC, .ABSX, 0xFD#8), (.INC, .ABSX, 0xFE#8)]

theorem tableRows9_sound : ∀ r ∈ tableRows9, ∃ i : Instr, i.mnemonic = r.1 ∧ i.form.mode = r.2.1 ∧ i.opcode = r.2.2 := by
  simp only [tableRows9, List.forall_mem_cons]
  exact
    ⟨⟨.sbcIndy 0, rfl, rfl, rfl⟩, ⟨.sbcZpx 0, rfl, rfl, rfl⟩, ⟨.incZpx 0, rfl, rfl, rfl⟩, ⟨.sed, rfl, rfl, rfl⟩,
      ⟨.sbcAbsy 0, rfl, rfl, rfl⟩, ⟨.sbcAbsx 0, rfl, rfl, rfl⟩, ⟨.incAbsx 0, rfl, rfl, rfl⟩,
      List.forall_mem_nil _⟩

/-- The 151 rows. -/
def tableRows : List (Mnemonic × AddrMode × Byte) :=
  tableRows0 ++ tableRows1 ++ tableRows2 ++ tableRows3 ++ tableRows4 ++
    tableRows5 ++ tableRows6 ++ tableRows7 ++ tableRows8 ++ tableRows9

theorem instr_mem_tableRows (i : Instr) : (i.mnemonic, i.form.mode, i.opcode) ∈ tableRows := by
  cases i <;> simp only [Instr.mnemonic, Instr.form, Instr.opcode, Instr.descriptor, Form.mode, MemForm.mode] <;> decide

/-- The rows are the instructions' (R98). -/
theorem mem_tableRows {m : Mnemonic} {mode : AddrMode} {op : Byte} :
    (m, mode, op) ∈ tableRows ↔ ∃ i : Instr, i.mnemonic = m ∧ i.form.mode = mode ∧ i.opcode = op := by
  constructor
  · intro h
    simp only [tableRows, List.mem_append] at h
    rcases h with ((((((((h | h) | h) | h) | h) | h) | h) | h) | h) | h
    · exact tableRows0_sound _ h
    · exact tableRows1_sound _ h
    · exact tableRows2_sound _ h
    · exact tableRows3_sound _ h
    · exact tableRows4_sound _ h
    · exact tableRows5_sound _ h
    · exact tableRows6_sound _ h
    · exact tableRows7_sound _ h
    · exact tableRows8_sound _ h
    · exact tableRows9_sound _ h
  · rintro ⟨i, rfl, rfl, rfl⟩
    exact instr_mem_tableRows i

end Sys2Proof
end

