-- ==== Sys2Proof/Tests/Slice0.lean ====
section
/-! SUPPORT. The model's own tests. Expected values come from the vectors of 95_test_vectors.md (named by their ids) and from the
encoding table of 30_encoding.md R98. Then, for every obligation that has hypotheses, a witness that meets them. -/

namespace Sys2Proof.Tests

open Sys2Proof.Machine

/-! ### Decoding: the words of R98, written out -/

/-- The bytes decode to the instruction, with none left over. -/
def decodesTo (bs : List Byte) (i : Instr) : Bool :=
  match decode bs with
  | .ok (j, []) => decide (j = i)
  | .ok (_, _ :: _) => false
  | .error _ => false

/-- Opcodes 0x00 to 0x0F. -/
def words0 : List (List Byte × Instr) :=
  [([0x00#8], .brk), ([0x01#8, 0x5A#8], .oraIndx 0x5A#8), ([0x05#8, 0x5A#8], .oraZp 0x5A#8),
   ([0x06#8, 0x5A#8], .aslZp 0x5A#8), ([0x08#8], .php), ([0x09#8, 0x5A#8], .oraImm 0x5A#8), ([0x0A#8], .aslAcc),
   ([0x0D#8, 0x34#8, 0x12#8], .oraAbs 0x1234#16), ([0x0E#8, 0x34#8, 0x12#8], .aslAbs 0x1234#16)]

theorem test_decode_0 : words0.all (fun r => decodesTo r.1 r.2) = true := by decide

/-- Opcodes 0x10 to 0x1F. -/
def words1 : List (List Byte × Instr) :=
  [([0x10#8, 0x5A#8], .bpl 0x5A#8), ([0x11#8, 0x5A#8], .oraIndy 0x5A#8), ([0x15#8, 0x5A#8], .oraZpx 0x5A#8),
   ([0x16#8, 0x5A#8], .aslZpx 0x5A#8), ([0x18#8], .clc), ([0x19#8, 0x34#8, 0x12#8], .oraAbsy 0x1234#16),
   ([0x1D#8, 0x34#8, 0x12#8], .oraAbsx 0x1234#16), ([0x1E#8, 0x34#8, 0x12#8], .aslAbsx 0x1234#16)]

theorem test_decode_1 : words1.all (fun r => decodesTo r.1 r.2) = true := by decide

/-- Opcodes 0x20 to 0x2F. -/
def words2 : List (List Byte × Instr) :=
  [([0x20#8, 0x34#8, 0x12#8], .jsr 0x1234#16), ([0x21#8, 0x5A#8], .andIndx 0x5A#8), ([0x24#8, 0x5A#8], .bitZp 0x5A#8),
   ([0x25#8, 0x5A#8], .andZp 0x5A#8), ([0x26#8, 0x5A#8], .rolZp 0x5A#8), ([0x28#8], .plp),
   ([0x29#8, 0x5A#8], .andImm 0x5A#8), ([0x2A#8], .rolAcc), ([0x2C#8, 0x34#8, 0x12#8], .bitAbs 0x1234#16),
   ([0x2D#8, 0x34#8, 0x12#8], .andAbs 0x1234#16), ([0x2E#8, 0x34#8, 0x12#8], .rolAbs 0x1234#16)]

theorem test_decode_2 : words2.all (fun r => decodesTo r.1 r.2) = true := by decide

/-- Opcodes 0x30 to 0x3F. -/
def words3 : List (List Byte × Instr) :=
  [([0x30#8, 0x5A#8], .bmi 0x5A#8), ([0x31#8, 0x5A#8], .andIndy 0x5A#8), ([0x35#8, 0x5A#8], .andZpx 0x5A#8),
   ([0x36#8, 0x5A#8], .rolZpx 0x5A#8), ([0x38#8], .sec), ([0x39#8, 0x34#8, 0x12#8], .andAbsy 0x1234#16),
   ([0x3D#8, 0x34#8, 0x12#8], .andAbsx 0x1234#16), ([0x3E#8, 0x34#8, 0x12#8], .rolAbsx 0x1234#16)]

theorem test_decode_3 : words3.all (fun r => decodesTo r.1 r.2) = true := by decide

/-- Opcodes 0x40 to 0x4F. -/
def words4 : List (List Byte × Instr) :=
  [([0x40#8], .rti), ([0x41#8, 0x5A#8], .eorIndx 0x5A#8), ([0x45#8, 0x5A#8], .eorZp 0x5A#8),
   ([0x46#8, 0x5A#8], .lsrZp 0x5A#8), ([0x48#8], .pha), ([0x49#8, 0x5A#8], .eorImm 0x5A#8), ([0x4A#8], .lsrAcc),
   ([0x4C#8, 0x34#8, 0x12#8], .jmpAbs 0x1234#16), ([0x4D#8, 0x34#8, 0x12#8], .eorAbs 0x1234#16),
   ([0x4E#8, 0x34#8, 0x12#8], .lsrAbs 0x1234#16)]

theorem test_decode_4 : words4.all (fun r => decodesTo r.1 r.2) = true := by decide

/-- Opcodes 0x50 to 0x5F. -/
def words5 : List (List Byte × Instr) :=
  [([0x50#8, 0x5A#8], .bvc 0x5A#8), ([0x51#8, 0x5A#8], .eorIndy 0x5A#8), ([0x55#8, 0x5A#8], .eorZpx 0x5A#8),
   ([0x56#8, 0x5A#8], .lsrZpx 0x5A#8), ([0x58#8], .cli), ([0x59#8, 0x34#8, 0x12#8], .eorAbsy 0x1234#16),
   ([0x5D#8, 0x34#8, 0x12#8], .eorAbsx 0x1234#16), ([0x5E#8, 0x34#8, 0x12#8], .lsrAbsx 0x1234#16)]

theorem test_decode_5 : words5.all (fun r => decodesTo r.1 r.2) = true := by decide

/-- Opcodes 0x60 to 0x6F. -/
def words6 : List (List Byte × Instr) :=
  [([0x60#8], .rts), ([0x61#8, 0x5A#8], .adcIndx 0x5A#8), ([0x65#8, 0x5A#8], .adcZp 0x5A#8),
   ([0x66#8, 0x5A#8], .rorZp 0x5A#8), ([0x68#8], .pla), ([0x69#8, 0x5A#8], .adcImm 0x5A#8), ([0x6A#8], .rorAcc),
   ([0x6C#8, 0x34#8, 0x12#8], .jmpInd 0x1234#16), ([0x6D#8, 0x34#8, 0x12#8], .adcAbs 0x1234#16),
   ([0x6E#8, 0x34#8, 0x12#8], .rorAbs 0x1234#16)]

theorem test_decode_6 : words6.all (fun r => decodesTo r.1 r.2) = true := by decide

/-- Opcodes 0x70 to 0x7F. -/
def words7 : List (List Byte × Instr) :=
  [([0x70#8, 0x5A#8], .bvs 0x5A#8), ([0x71#8, 0x5A#8], .adcIndy 0x5A#8), ([0x75#8, 0x5A#8], .adcZpx 0x5A#8),
   ([0x76#8, 0x5A#8], .rorZpx 0x5A#8), ([0x78#8], .sei), ([0x79#8, 0x34#8, 0x12#8], .adcAbsy 0x1234#16),
   ([0x7D#8, 0x34#8, 0x12#8], .adcAbsx 0x1234#16), ([0x7E#8, 0x34#8, 0x12#8], .rorAbsx 0x1234#16)]

theorem test_decode_7 : words7.all (fun r => decodesTo r.1 r.2) = true := by decide

/-- Opcodes 0x80 to 0x8F. -/
def words8 : List (List Byte × Instr) :=
  [([0x81#8, 0x5A#8], .staIndx 0x5A#8), ([0x84#8, 0x5A#8], .styZp 0x5A#8), ([0x85#8, 0x5A#8], .staZp 0x5A#8),
   ([0x86#8, 0x5A#8], .stxZp 0x5A#8), ([0x88#8], .dey), ([0x8A#8], .txa), ([0x8C#8, 0x34#8, 0x12#8], .styAbs 0x1234#16),
   ([0x8D#8, 0x34#8, 0x12#8], .staAbs 0x1234#16), ([0x8E#8, 0x34#8, 0x12#8], .stxAbs 0x1234#16)]

theorem test_decode_8 : words8.all (fun r => decodesTo r.1 r.2) = true := by decide

/-- Opcodes 0x90 to 0x9F. -/
def words9 : List (List Byte × Instr) :=
  [([0x90#8, 0x5A#8], .bcc 0x5A#8), ([0x91#8, 0x5A#8], .staIndy 0x5A#8), ([0x94#8, 0x5A#8], .styZpx 0x5A#8),
   ([0x95#8, 0x5A#8], .staZpx 0x5A#8), ([0x96#8, 0x5A#8], .stxZpy 0x5A#8), ([0x98#8], .tya),
   ([0x99#8, 0x34#8, 0x12#8], .staAbsy 0x1234#16), ([0x9A#8], .txs), ([0x9D#8, 0x34#8, 0x12#8], .staAbsx 0x1234#16)]

theorem test_decode_9 : words9.all (fun r => decodesTo r.1 r.2) = true := by decide

/-- Opcodes 0xA0 to 0xAF. -/
def wordsA : List (List Byte × Instr) :=
  [([0xA0#8, 0x5A#8], .ldyImm 0x5A#8), ([0xA1#8, 0x5A#8], .ldaIndx 0x5A#8), ([0xA2#8, 0x5A#8], .ldxImm 0x5A#8),
   ([0xA4#8, 0x5A#8], .ldyZp 0x5A#8), ([0xA5#8, 0x5A#8], .ldaZp 0x5A#8), ([0xA6#8, 0x5A#8], .ldxZp 0x5A#8),
   ([0xA8#8], .tay), ([0xA9#8, 0x5A#8], .ldaImm 0x5A#8), ([0xAA#8], .tax), ([0xAC#8, 0x34#8, 0x12#8], .ldyAbs 0x1234#16),
   ([0xAD#8, 0x34#8, 0x12#8], .ldaAbs 0x1234#16), ([0xAE#8, 0x34#8, 0x12#8], .ldxAbs 0x1234#16)]

theorem test_decode_A : wordsA.all (fun r => decodesTo r.1 r.2) = true := by decide

/-- Opcodes 0xB0 to 0xBF. -/
def wordsB : List (List Byte × Instr) :=
  [([0xB0#8, 0x5A#8], .bcs 0x5A#8), ([0xB1#8, 0x5A#8], .ldaIndy 0x5A#8), ([0xB4#8, 0x5A#8], .ldyZpx 0x5A#8),
   ([0xB5#8, 0x5A#8], .ldaZpx 0x5A#8), ([0xB6#8, 0x5A#8], .ldxZpy 0x5A#8), ([0xB8#8], .clv),
   ([0xB9#8, 0x34#8, 0x12#8], .ldaAbsy 0x1234#16), ([0xBA#8], .tsx), ([0xBC#8, 0x34#8, 0x12#8], .ldyAbsx 0x1234#16),
   ([0xBD#8, 0x34#8, 0x12#8], .ldaAbsx 0x1234#16), ([0xBE#8, 0x34#8, 0x12#8], .ldxAbsy 0x1234#16)]

theorem test_decode_B : wordsB.all (fun r => decodesTo r.1 r.2) = true := by decide

/-- Opcodes 0xC0 to 0xCF. -/
def wordsC : List (List Byte × Instr) :=
  [([0xC0#8, 0x5A#8], .cpyImm 0x5A#8), ([0xC1#8, 0x5A#8], .cmpIndx 0x5A#8), ([0xC4#8, 0x5A#8], .cpyZp 0x5A#8),
   ([0xC5#8, 0x5A#8], .cmpZp 0x5A#8), ([0xC6#8, 0x5A#8], .decZp 0x5A#8), ([0xC8#8], .iny),
   ([0xC9#8, 0x5A#8], .cmpImm 0x5A#8), ([0xCA#8], .dex), ([0xCC#8, 0x34#8, 0x12#8], .cpyAbs 0x1234#16),
   ([0xCD#8, 0x34#8, 0x12#8], .cmpAbs 0x1234#16), ([0xCE#8, 0x34#8, 0x12#8], .decAbs 0x1234#16)]

theorem test_decode_C : wordsC.all (fun r => decodesTo r.1 r.2) = true := by decide

/-- Opcodes 0xD0 to 0xDF. -/
def wordsD : List (List Byte × Instr) :=
  [([0xD0#8, 0x5A#8], .bne 0x5A#8), ([0xD1#8, 0x5A#8], .cmpIndy 0x5A#8), ([0xD5#8, 0x5A#8], .cmpZpx 0x5A#8),
   ([0xD6#8, 0x5A#8], .decZpx 0x5A#8), ([0xD8#8], .cld), ([0xD9#8, 0x34#8, 0x12#8], .cmpAbsy 0x1234#16),
   ([0xDD#8, 0x34#8, 0x12#8], .cmpAbsx 0x1234#16), ([0xDE#8, 0x34#8, 0x12#8], .decAbsx 0x1234#16)]

theorem test_decode_D : wordsD.all (fun r => decodesTo r.1 r.2) = true := by decide

/-- Opcodes 0xE0 to 0xEF. -/
def wordsE : List (List Byte × Instr) :=
  [([0xE0#8, 0x5A#8], .cpxImm 0x5A#8), ([0xE1#8, 0x5A#8], .sbcIndx 0x5A#8), ([0xE4#8, 0x5A#8], .cpxZp 0x5A#8),
   ([0xE5#8, 0x5A#8], .sbcZp 0x5A#8), ([0xE6#8, 0x5A#8], .incZp 0x5A#8), ([0xE8#8], .inx),
   ([0xE9#8, 0x5A#8], .sbcImm 0x5A#8), ([0xEA#8], .nop), ([0xEC#8, 0x34#8, 0x12#8], .cpxAbs 0x1234#16),
   ([0xED#8, 0x34#8, 0x12#8], .sbcAbs 0x1234#16), ([0xEE#8, 0x34#8, 0x12#8], .incAbs 0x1234#16)]

theorem test_decode_E : wordsE.all (fun r => decodesTo r.1 r.2) = true := by decide

/-- Opcodes 0xF0 to 0xFF. -/
def wordsF : List (List Byte × Instr) :=
  [([0xF0#8, 0x5A#8], .beq 0x5A#8), ([0xF1#8, 0x5A#8], .sbcIndy 0x5A#8), ([0xF5#8, 0x5A#8], .sbcZpx 0x5A#8),
   ([0xF6#8, 0x5A#8], .incZpx 0x5A#8), ([0xF8#8], .sed), ([0xF9#8, 0x34#8, 0x12#8], .sbcAbsy 0x1234#16),
   ([0xFD#8, 0x34#8, 0x12#8], .sbcAbsx 0x1234#16), ([0xFE#8, 0x34#8, 0x12#8], .incAbsx 0x1234#16)]

theorem test_decode_F : wordsF.all (fun r => decodesTo r.1 r.2) = true := by decide

/-- R98: the table has 151 rows, so no constructor is left out. -/
theorem test_words_are_151 :
    ([words0, words1, words2, words3, words4, words5, words6, words7, words8, words9, wordsA, wordsB, wordsC, wordsD, wordsE,
      wordsF].map List.length).sum = 151 := by decide

/-- R93: a missing operand byte is no instruction. -/
theorem test_decode_truncated : decode [0xAD#8, 0x00#8] = .error (.truncated 0xAD#8) := rfl

/-- R94: an illegal byte is refused by name, whatever follows. -/
theorem test_decode_illegal : decode [0x02#8, 0xA9#8] = .error (.illegalOpcode 0x02#8) := rfl

/-- The numbering of spec/opcode_table.json, whole and with an operand the table gives no bits. -/
theorem test_decodeTableWord :
    decodeTableWord 24 0x1234BD = some (.ldaAbsx 0x1234#16) ∧ decodeTableWord 8 0xA9 = some (.ldaImm 0x00#8) ∧
      decodeTableWord 8 0x02 = none := by decide

/-- The next step after a load runs exactly the word placed (log 13): `INX` with the reset value of X. -/
theorem test_withFetchWord_runs :
    (match step (State.reset.withFetchWord 8 0xE8) with | .next t => some (t.x, t.pc) | _ => none) =
      some (0x01#8, 0x0201#16) := by decide

/-! ### WellFormed: what the check refuses (R9) -/

/-- An image of `n` bytes. -/
def image (n : Nat) : List Byte := List.replicate n 0xEA#8

@[simp] theorem image_length (n : Nat) : (image n).length = n := List.length_replicate

/-- A configuration with images of the given sizes. -/
def raw (clock : String) (basic kernal char : Nat) : RawConfig where
  clock := clock
  basic := some (image basic)
  kernal := some (image kernal)
  char := some (image char)

theorem test_wf_missing_basic : (({ raw "PAL" 0 0 0 with basic := none } : RawConfig).check) = .error (.missingRom .basic) := rfl

theorem test_wf_missing_kernal :
    ({ raw "PAL" 8192 0 0 with kernal := none } : RawConfig).check = .error (.missingRom .kernal) := by
  simp [raw, RawConfig.check, checkClock, checkRom, RomName.size]

theorem test_wf_missing_char : ({ raw "NTSC" 8192 8192 0 with char := none } : RawConfig).check = .error (.missingRom .char) := by
  simp [raw, RawConfig.check, checkClock, checkRom, RomName.size]

theorem test_wf_missized_basic : (raw "PAL" 8191 8192 4096).check = .error (.missizedRom .basic 8191) := by
  simp [raw, RawConfig.check, checkClock, checkRom, RomName.size]

theorem test_wf_missized_kernal : (raw "PAL" 8192 8193 4096).check = .error (.missizedRom .kernal 8193) := by
  simp [raw, RawConfig.check, checkClock, checkRom, RomName.size]

theorem test_wf_missized_char : (raw "PAL" 8192 8192 8192).check = .error (.missizedRom .char 8192) := by
  simp [raw, RawConfig.check, checkClock, checkRom, RomName.size]

theorem test_wf_invalid_clock : (raw "SECAM" 8192 8192 4096).check = .error (.invalidClock "SECAM") := rfl

/-! ### One step: the vectors of L2 -/

/-- Environment E0 of the vectors (all RAM) with the registers, the flags as `Pack(1)` and the memory bytes of one. -/
def start (pc : Addr) (a x y sp p : Byte) (mem : Memory) : State :=
  { State.reset with
    portDDR := 0x07#8, portDATA := 0x00#8, pc := pc, a := a, x := x, y := y, sp := sp, p := unpackFlags p,
    ram := mem.foldl (fun r c => r.write c.1 c.2) [] }

/-- The snapshot after one step (R291): A, X, Y, S, PC, Pack(1), Cycles, cost. -/
def after (s : State) : Option Snapshot :=
  match step s with
  | .next t => some (snapshot s t)
  | .fault _ | .refused _ => none

/-- RAM bytes after one step. -/
def stored (s : State) (l : List Nat) : Option (List Byte) :=
  match step s with
  | .next t => some (l.map t.ram.read)
  | .fault _ | .refused _ => none

/-- LDA IMM. -/
theorem test_mode_1 :
    after (start 0x0200#16 0x55#8 0x00#8 0x00#8 0xFD#8 0x30#8
      [(0x0200, 0xA9#8), (0x0201, 0x00#8)]) =
      some ⟨0x00#8, 0x00#8, 0x00#8, 0xFD#8, 0x0202#16, 0x32#8, 2, 2⟩ := by decide

/-- LDA ZP. -/
theorem test_mode_2 :
    after (start 0x0200#16 0x00#8 0x00#8 0x00#8 0xFD#8 0x30#8
      [(0x0080, 0x81#8), (0x0200, 0xA5#8), (0x0201, 0x80#8)]) =
      some ⟨0x81#8, 0x00#8, 0x00#8, 0xFD#8, 0x0202#16, 0xB0#8, 3, 3⟩ := by decide

/-- LDA ZPX. -/
theorem test_mode_3 :
    after (start 0x0200#16 0x00#8 0x20#8 0x00#8 0xFD#8 0x30#8
      [(0x0010, 0x12#8), (0x0110, 0x99#8), (0x0200, 0xB5#8), (0x0201, 0xF0#8)]) =
      some ⟨0x12#8, 0x20#8, 0x00#8, 0xFD#8, 0x0202#16, 0x30#8, 4, 4⟩ := by decide

/-- LDX ZPY. -/
theorem test_mode_4 :
    after (start 0x0200#16 0x00#8 0x00#8 0x03#8 0xFD#8 0x30#8
      [(0x0002, 0x7E#8), (0x0200, 0xB6#8), (0x0201, 0xFF#8)]) =
      some ⟨0x00#8, 0x7E#8, 0x03#8, 0xFD#8, 0x0202#16, 0x30#8, 4, 4⟩ := by decide

/-- LDA ABS. -/
theorem test_mode_5 :
    after (start 0x0200#16 0x00#8 0x00#8 0x00#8 0xFD#8 0x30#8
      [(0x0200, 0xAD#8), (0x0201, 0x34#8), (0x0202, 0x12#8), (0x1234, 0x56#8)]) =
      some ⟨0x56#8, 0x00#8, 0x00#8, 0xFD#8, 0x0203#16, 0x30#8, 4, 4⟩ := by decide

/-- LDA ABSX. -/
theorem test_mode_6 :
    after (start 0x0200#16 0x00#8 0x0F#8 0x00#8 0xFD#8 0x30#8
      [(0x0200, 0xBD#8), (0x0201, 0xF0#8), (0x0202, 0x12#8), (0x12FF, 0x01#8)]) =
      some ⟨0x01#8, 0x0F#8, 0x00#8, 0xFD#8, 0x0203#16, 0x30#8, 4, 4⟩ := by decide

/-- LDA ABSX. -/
theorem test_mode_7 :
    after (start 0x0200#16 0x00#8 0x20#8 0x00#8 0xFD#8 0x30#8
      [(0x0200, 0xBD#8), (0x0201, 0xF0#8), (0x0202, 0x12#8), (0x1310, 0x02#8)]) =
      some ⟨0x02#8, 0x20#8, 0x00#8, 0xFD#8, 0x0203#16, 0x30#8, 5, 5⟩ := by decide

/-- LDA ABSY. -/
theorem test_mode_8 :
    after (start 0x0200#16 0x00#8 0x00#8 0x20#8 0xFD#8 0x30#8
      [(0x0010, 0x03#8), (0x0200, 0xB9#8), (0x0201, 0xF0#8), (0x0202, 0xFF#8)]) =
      some ⟨0x03#8, 0x00#8, 0x20#8, 0xFD#8, 0x0203#16, 0x30#8, 5, 5⟩ := by decide

/-- LDA INDX. -/
theorem test_mode_9 :
    after (start 0x0200#16 0x00#8 0x04#8 0x00#8 0xFD#8 0x30#8
      [(0x0024, 0x74#8), (0x0025, 0x20#8), (0x0200, 0xA1#8), (0x0201, 0x20#8), (0x2074, 0x9C#8)]) =
      some ⟨0x9C#8, 0x04#8, 0x00#8, 0xFD#8, 0x0202#16, 0xB0#8, 6, 6⟩ := by decide

/-- LDA INDX. -/
theorem test_mode_10 :
    after (start 0x0200#16 0x00#8 0x00#8 0x00#8 0xFD#8 0x30#8
      [(0x00FF, 0x40#8), (0x0200, 0xA1#8), (0x0201, 0xFF#8), (0x0740, 0x5A#8)]) =
      some ⟨0x5A#8, 0x00#8, 0x00#8, 0xFD#8, 0x0202#16, 0x30#8, 6, 6⟩ := by decide

/-- LDA INDY. -/
theorem test_mode_11 :
    after (start 0x0200#16 0x00#8 0x00#8 0x01#8 0xFD#8 0x30#8
      [(0x0080, 0xFF#8), (0x0081, 0x20#8), (0x0200, 0xB1#8), (0x0201, 0x80#8), (0x2100, 0x77#8)]) =
      some ⟨0x77#8, 0x00#8, 0x01#8, 0xFD#8, 0x0202#16, 0x30#8, 6, 6⟩ := by decide

/-- LDA INDY. -/
theorem test_mode_12 :
    after (start 0x0200#16 0x00#8 0x00#8 0x10#8 0xFD#8 0x30#8
      [(0x0080, 0x00#8), (0x0081, 0x20#8), (0x0200, 0xB1#8), (0x0201, 0x80#8), (0x2010, 0x66#8)]) =
      some ⟨0x66#8, 0x00#8, 0x10#8, 0xFD#8, 0x0202#16, 0x30#8, 5, 5⟩ := by decide

/-- STA ABSX. -/
theorem test_mode_13 :
    let s := start 0x0200#16 0x42#8 0x05#8 0x00#8 0xFD#8 0x30#8
      [(0x0200, 0x9D#8), (0x0201, 0xF0#8), (0x0202, 0x12#8)]
    after s = some ⟨0x42#8, 0x05#8, 0x00#8, 0xFD#8, 0x0203#16, 0x30#8, 5, 5⟩ ∧ stored s [0x12F5] = some [0x42#8] := by decide

/-- STA INDY. -/
theorem test_mode_14 :
    let s := start 0x0200#16 0x42#8 0x00#8 0x01#8 0xFD#8 0x30#8
      [(0x0080, 0xFF#8), (0x0081, 0x20#8), (0x0200, 0x91#8), (0x0201, 0x80#8)]
    after s = some ⟨0x42#8, 0x00#8, 0x01#8, 0xFD#8, 0x0202#16, 0x30#8, 6, 6⟩ ∧ stored s [0x2100] = some [0x42#8] := by decide

/-- JMP IND. -/
theorem test_mode_15 :
    after (start 0x0200#16 0x00#8 0x00#8 0x00#8 0xFD#8 0x30#8
      [(0x0200, 0x6C#8), (0x0201, 0xFF#8), (0x0202, 0x10#8), (0x1000, 0x12#8), (0x10FF, 0x34#8), (0x1100, 0x56#8)]) =
      some ⟨0x00#8, 0x00#8, 0x00#8, 0xFD#8, 0x1234#16, 0x30#8, 5, 5⟩ := by decide

/-- JMP IND. -/
theorem test_mode_16 :
    after (start 0x0200#16 0x00#8 0x00#8 0x00#8 0xFD#8 0x30#8
      [(0x0200, 0x6C#8), (0x0201, 0x00#8), (0x0202, 0x12#8), (0x1200, 0x00#8), (0x1201, 0xC0#8)]) =
      some ⟨0x00#8, 0x00#8, 0x00#8, 0xFD#8, 0xC000#16, 0x30#8, 5, 5⟩ := by decide

/-- LDA IMM. -/
theorem test_ldst_1 :
    after (start 0x0200#16 0x00#8 0x00#8 0x00#8 0xFD#8 0x30#8
      [(0x0200, 0xA9#8), (0x0201, 0x80#8)]) =
      some ⟨0x80#8, 0x00#8, 0x00#8, 0xFD#8, 0x0202#16, 0xB0#8, 2, 2⟩ := by decide

/-- LDX IMM. -/
theorem test_ldst_2 :
    after (start 0x0200#16 0x00#8 0x10#8 0x00#8 0xFD#8 0x30#8
      [(0x0200, 0xA2#8), (0x0201, 0x00#8)]) =
      some ⟨0x00#8, 0x00#8, 0x00#8, 0xFD#8, 0x0202#16, 0x32#8, 2, 2⟩ := by decide

/-- LDY ABSX. -/
theorem test_ldst_3 :
    after (start 0x0200#16 0x00#8 0x01#8 0x00#8 0xFD#8 0x30#8
      [(0x0200, 0xBC#8), (0x0201, 0xFF#8), (0x0202, 0x20#8), (0x2100, 0x7F#8)]) =
      some ⟨0x00#8, 0x01#8, 0x7F#8, 0xFD#8, 0x0203#16, 0x30#8, 5, 5⟩ := by decide

/-- LDX ABSY. -/
theorem test_ldst_4 :
    after (start 0x0200#16 0x00#8 0x00#8 0xFF#8 0xFD#8 0x30#8
      [(0x0200, 0xBE#8), (0x0201, 0x00#8), (0x0202, 0x20#8), (0x20FF, 0xFF#8)]) =
      some ⟨0x00#8, 0xFF#8, 0xFF#8, 0xFD#8, 0x0203#16, 0xB0#8, 4, 4⟩ := by decide

/-- STA ZP. -/
theorem test_ldst_5 :
    let s := start 0x0200#16 0x00#8 0x00#8 0x00#8 0xFD#8 0xB0#8
      [(0x0200, 0x85#8), (0x0201, 0x10#8)]
    after s = some ⟨0x00#8, 0x00#8, 0x00#8, 0xFD#8, 0x0202#16, 0xB0#8, 3, 3⟩ ∧ stored s [0x0010] = some [0x00#8] := by decide

/-- STX ZPY. -/
theorem test_ldst_6 :
    let s := start 0x0200#16 0x00#8 0xAB#8 0x20#8 0xFD#8 0x30#8
      [(0x0200, 0x96#8), (0x0201, 0xF0#8)]
    after s = some ⟨0x00#8, 0xAB#8, 0x20#8, 0xFD#8, 0x0202#16, 0x30#8, 4, 4⟩ ∧ stored s [0x0010] = some [0xAB#8] := by decide

/-- STY ABS. -/
theorem test_ldst_7 :
    let s := start 0x0200#16 0x00#8 0x00#8 0xCD#8 0xFD#8 0x30#8
      [(0x0200, 0x8C#8), (0x0201, 0x00#8), (0x0202, 0x04#8)]
    after s = some ⟨0x00#8, 0x00#8, 0xCD#8, 0xFD#8, 0x0203#16, 0x30#8, 4, 4⟩ ∧ stored s [0x0400] = some [0xCD#8] := by decide

/-- TAX IMP. -/
theorem test_ldst_8 :
    after (start 0x0200#16 0x00#8 0x33#8 0x00#8 0xFD#8 0x30#8
      [(0x0200, 0xAA#8)]) =
      some ⟨0x00#8, 0x00#8, 0x00#8, 0xFD#8, 0x0201#16, 0x32#8, 2, 2⟩ := by decide

/-- TAY IMP. -/
theorem test_ldst_9 :
    after (start 0x0200#16 0x90#8 0x00#8 0x00#8 0xFD#8 0x30#8
      [(0x0200, 0xA8#8)]) =
      some ⟨0x90#8, 0x00#8, 0x90#8, 0xFD#8, 0x0201#16, 0xB0#8, 2, 2⟩ := by decide

/-- TXA IMP. -/
theorem test_ldst_10 :
    after (start 0x0200#16 0x80#8 0x7F#8 0x00#8 0xFD#8 0xB2#8
      [(0x0200, 0x8A#8)]) =
      some ⟨0x7F#8, 0x7F#8, 0x00#8, 0xFD#8, 0x0201#16, 0x30#8, 2, 2⟩ := by decide

/-- TYA IMP. -/
theorem test_ldst_11 :
    after (start 0x0200#16 0x01#8 0x00#8 0x00#8 0xFD#8 0x30#8
      [(0x0200, 0x98#8)]) =
      some ⟨0x00#8, 0x00#8, 0x00#8, 0xFD#8, 0x0201#16, 0x32#8, 2, 2⟩ := by decide

/-- TSX IMP. -/
theorem test_ldst_12 :
    after (start 0x0200#16 0x00#8 0x00#8 0x00#8 0xF0#8 0x30#8
      [(0x0200, 0xBA#8)]) =
      some ⟨0x00#8, 0xF0#8, 0x00#8, 0xF0#8, 0x0201#16, 0xB0#8, 2, 2⟩ := by decide

/-- TXS IMP. -/
theorem test_ldst_13 :
    after (start 0x0200#16 0x00#8 0x00#8 0x00#8 0xFD#8 0x30#8
      [(0x0200, 0x9A#8)]) =
      some ⟨0x00#8, 0x00#8, 0x00#8, 0x00#8, 0x0201#16, 0x30#8, 2, 2⟩ := by decide

/-- PHA IMP. -/
theorem test_stack_1 :
    let s := start 0x0200#16 0x5A#8 0x00#8 0x00#8 0xFD#8 0x30#8
      [(0x0200, 0x48#8)]
    after s = some ⟨0x5A#8, 0x00#8, 0x00#8, 0xFC#8, 0x0201#16, 0x30#8, 3, 3⟩ ∧ stored s [0x01FD] = some [0x5A#8] := by decide

/-- PHA IMP. -/
theorem test_stack_2 :
    let s := start 0x0200#16 0x5A#8 0x00#8 0x00#8 0x00#8 0x30#8
      [(0x0200, 0x48#8)]
    after s = some ⟨0x5A#8, 0x00#8, 0x00#8, 0xFF#8, 0x0201#16, 0x30#8, 3, 3⟩ ∧ stored s [0x0100] = some [0x5A#8] := by decide

/-- PHP IMP. -/
theorem test_stack_3 :
    let s := start 0x0200#16 0x00#8 0x00#8 0x00#8 0xFD#8 0xB9#8
      [(0x0200, 0x08#8)]
    after s = some ⟨0x00#8, 0x00#8, 0x00#8, 0xFC#8, 0x0201#16, 0xB9#8, 3, 3⟩ ∧ stored s [0x01FD] = some [0xB9#8] := by decide

/-- PHP IMP. -/
theorem test_stack_4 :
    let s := start 0x0200#16 0x00#8 0x00#8 0x00#8 0xFD#8 0x30#8
      [(0x0200, 0x08#8)]
    after s = some ⟨0x00#8, 0x00#8, 0x00#8, 0xFC#8, 0x0201#16, 0x30#8, 3, 3⟩ ∧ stored s [0x01FD] = some [0x30#8] := by decide

/-- PLA IMP. -/
theorem test_stack_5 :
    after (start 0x0200#16 0x12#8 0x00#8 0x00#8 0xFF#8 0x30#8
      [(0x0100, 0x00#8), (0x0200, 0x68#8)]) =
      some ⟨0x00#8, 0x00#8, 0x00#8, 0x00#8, 0x0201#16, 0x32#8, 4, 4⟩ := by decide

/-- PLA IMP. -/
theorem test_stack_6 :
    after (start 0x0200#16 0x00#8 0x00#8 0x00#8 0xFC#8 0x30#8
      [(0x01FD, 0x80#8), (0x0200, 0x68#8)]) =
      some ⟨0x80#8, 0x00#8, 0x00#8, 0xFD#8, 0x0201#16, 0xB0#8, 4, 4⟩ := by decide

/-- PLP IMP. -/
theorem test_stack_7 :
    after (start 0x0200#16 0x00#8 0x00#8 0x00#8 0xFC#8 0x30#8
      [(0x01FD, 0xFF#8), (0x0200, 0x28#8)]) =
      some ⟨0x00#8, 0x00#8, 0x00#8, 0xFD#8, 0x0201#16, 0xFF#8, 4, 4⟩ := by decide

/-- PLP IMP. -/
theorem test_stack_8 :
    after (start 0x0200#16 0x00#8 0x00#8 0x00#8 0xFC#8 0xFF#8
      [(0x01FD, 0x00#8), (0x0200, 0x28#8)]) =
      some ⟨0x00#8, 0x00#8, 0x00#8, 0xFD#8, 0x0201#16, 0x30#8, 4, 4⟩ := by decide

/-- ADC IMM. -/
theorem test_adc_8 :
    after (start 0x0200#16 0xD0#8 0x00#8 0x00#8 0xFD#8 0x30#8
      [(0x0200, 0x69#8), (0x0201, 0x90#8)]) =
      some ⟨0x60#8, 0x00#8, 0x00#8, 0xFD#8, 0x0202#16, 0x71#8, 2, 2⟩ := by decide

/-- SBC IMM. -/
theorem test_sbc_2 :
    after (start 0x0200#16 0x50#8 0x00#8 0x00#8 0xFD#8 0x31#8
      [(0x0200, 0xE9#8), (0x0201, 0xB0#8)]) =
      some ⟨0xA0#8, 0x00#8, 0x00#8, 0xFD#8, 0x0202#16, 0xF0#8, 2, 2⟩ := by decide

/-- ADC IMM. -/
theorem test_bcd_11 :
    after (start 0x0200#16 0xFF#8 0x00#8 0x00#8 0xFD#8 0x38#8
      [(0x0200, 0x69#8), (0x0201, 0x01#8)]) =
      some ⟨0x66#8, 0x00#8, 0x00#8, 0xFD#8, 0x0202#16, 0x3B#8, 2, 2⟩ := by decide

/-- SBC IMM. -/
theorem test_bcd_20 :
    after (start 0x0200#16 0x00#8 0x00#8 0x00#8 0xFD#8 0x38#8
      [(0x0200, 0xE9#8), (0x0201, 0x0F#8)]) =
      some ⟨0x9A#8, 0x00#8, 0x00#8, 0xFD#8, 0x0202#16, 0xB8#8, 2, 2⟩ := by decide

/-- CMP IMM. -/
theorem test_cmp_1 :
    after (start 0x0200#16 0x40#8 0x00#8 0x00#8 0xFD#8 0x30#8
      [(0x0200, 0xC9#8), (0x0201, 0x30#8)]) =
      some ⟨0x40#8, 0x00#8, 0x00#8, 0xFD#8, 0x0202#16, 0x31#8, 2, 2⟩ := by decide

/-- CMP IMM. -/
theorem test_cmp_2 :
    after (start 0x0200#16 0x40#8 0x00#8 0x00#8 0xFD#8 0x30#8
      [(0x0200, 0xC9#8), (0x0201, 0x40#8)]) =
      some ⟨0x40#8, 0x00#8, 0x00#8, 0xFD#8, 0x0202#16, 0x33#8, 2, 2⟩ := by decide

/-- CPX IMM. -/
theorem test_cmp_6 :
    after (start 0x0200#16 0x00#8 0xFF#8 0x00#8 0xFD#8 0x30#8
      [(0x0200, 0xE0#8), (0x0201, 0xFF#8)]) =
      some ⟨0x00#8, 0xFF#8, 0x00#8, 0xFD#8, 0x0202#16, 0x33#8, 2, 2⟩ := by decide

/-- CPX ZP. -/
theorem test_cmp_7 :
    after (start 0x0200#16 0x00#8 0x00#8 0x00#8 0xFD#8 0x30#8
      [(0x0010, 0x80#8), (0x0200, 0xE4#8), (0x0201, 0x10#8)]) =
      some ⟨0x00#8, 0x00#8, 0x00#8, 0xFD#8, 0x0202#16, 0xB0#8, 3, 3⟩ := by decide

/-- CPY ABS. -/
theorem test_cmp_8 :
    after (start 0x0200#16 0x00#8 0x00#8 0x7F#8 0xFD#8 0x30#8
      [(0x0200, 0xCC#8), (0x0201, 0x00#8), (0x0202, 0x04#8), (0x0400, 0x80#8)]) =
      some ⟨0x00#8, 0x00#8, 0x7F#8, 0xFD#8, 0x0203#16, 0xB0#8, 4, 4⟩ := by decide

/-- INC ZP. -/
theorem test_incdec_1 :
    let s := start 0x0200#16 0x00#8 0x00#8 0x00#8 0xFD#8 0x30#8
      [(0x0010, 0xFF#8), (0x0200, 0xE6#8), (0x0201, 0x10#8)]
    after s = some ⟨0x00#8, 0x00#8, 0x00#8, 0xFD#8, 0x0202#16, 0x32#8, 5, 5⟩ ∧ stored s [0x0010] = some [0x00#8] := by decide

/-- INC ABSX. -/
theorem test_incdec_2 :
    let s := start 0x0200#16 0x00#8 0x01#8 0x00#8 0xFD#8 0x30#8
      [(0x0200, 0xFE#8), (0x0201, 0xFF#8), (0x0202, 0x04#8), (0x0500, 0x7F#8)]
    after s = some ⟨0x00#8, 0x01#8, 0x00#8, 0xFD#8, 0x0203#16, 0xB0#8, 7, 7⟩ ∧ stored s [0x0500] = some [0x80#8] := by decide

/-- DEC ZP. -/
theorem test_incdec_3 :
    let s := start 0x0200#16 0x00#8 0x00#8 0x00#8 0xFD#8 0x30#8
      [(0x0010, 0x00#8), (0x0200, 0xC6#8), (0x0201, 0x10#8)]
    after s = some ⟨0x00#8, 0x00#8, 0x00#8, 0xFD#8, 0x0202#16, 0xB0#8, 5, 5⟩ ∧ stored s [0x0010] = some [0xFF#8] := by decide

/-- DEC ZPX. -/
theorem test_incdec_4 :
    let s := start 0x0200#16 0x00#8 0x01#8 0x00#8 0xFD#8 0x30#8
      [(0x0011, 0x01#8), (0x0200, 0xD6#8), (0x0201, 0x10#8)]
    after s = some ⟨0x00#8, 0x01#8, 0x00#8, 0xFD#8, 0x0202#16, 0x32#8, 6, 6⟩ ∧ stored s [0x0011] = some [0x00#8] := by decide

/-- INX IMP. -/
theorem test_incdec_5 :
    after (start 0x0200#16 0x00#8 0xFF#8 0x00#8 0xFD#8 0x31#8
      [(0x0200, 0xE8#8)]) =
      some ⟨0x00#8, 0x00#8, 0x00#8, 0xFD#8, 0x0201#16, 0x33#8, 2, 2⟩ := by decide

/-- INY IMP. -/
theorem test_incdec_6 :
    after (start 0x0200#16 0x00#8 0x00#8 0x7F#8 0xFD#8 0x30#8
      [(0x0200, 0xC8#8)]) =
      some ⟨0x00#8, 0x00#8, 0x80#8, 0xFD#8, 0x0201#16, 0xB0#8, 2, 2⟩ := by decide

/-- DEX IMP. -/
theorem test_incdec_7 :
    after (start 0x0200#16 0x00#8 0x01#8 0x00#8 0xFD#8 0x30#8
      [(0x0200, 0xCA#8)]) =
      some ⟨0x00#8, 0x00#8, 0x00#8, 0xFD#8, 0x0201#16, 0x32#8, 2, 2⟩ := by decide

/-- DEY IMP. -/
theorem test_incdec_8 :
    after (start 0x0200#16 0x00#8 0x00#8 0x00#8 0xFD#8 0x30#8
      [(0x0200, 0x88#8)]) =
      some ⟨0x00#8, 0x00#8, 0xFF#8, 0xFD#8, 0x0201#16, 0xB0#8, 2, 2⟩ := by decide

/-- AND IMM. -/
theorem test_logic_1 :
    after (start 0x0200#16 0xF3#8 0x00#8 0x00#8 0xFD#8 0x30#8
      [(0x0200, 0x29#8), (0x0201, 0x0F#8)]) =
      some ⟨0x03#8, 0x00#8, 0x00#8, 0xFD#8, 0x0202#16, 0x30#8, 2, 2⟩ := by decide

/-- AND IMM. -/
theorem test_logic_2 :
    after (start 0x0200#16 0xF0#8 0x00#8 0x00#8 0xFD#8 0x30#8
      [(0x0200, 0x29#8), (0x0201, 0x0F#8)]) =
      some ⟨0x00#8, 0x00#8, 0x00#8, 0xFD#8, 0x0202#16, 0x32#8, 2, 2⟩ := by decide

/-- ORA IMM. -/
theorem test_logic_3 :
    after (start 0x0200#16 0x01#8 0x00#8 0x00#8 0xFD#8 0x30#8
      [(0x0200, 0x09#8), (0x0201, 0x80#8)]) =
      some ⟨0x81#8, 0x00#8, 0x00#8, 0xFD#8, 0x0202#16, 0xB0#8, 2, 2⟩ := by decide

/-- ORA IMM. -/
theorem test_logic_4 :
    after (start 0x0200#16 0x00#8 0x00#8 0x00#8 0xFD#8 0x30#8
      [(0x0200, 0x09#8), (0x0201, 0x00#8)]) =
      some ⟨0x00#8, 0x00#8, 0x00#8, 0xFD#8, 0x0202#16, 0x32#8, 2, 2⟩ := by decide

/-- EOR IMM. -/
theorem test_logic_5 :
    after (start 0x0200#16 0xFF#8 0x00#8 0x00#8 0xFD#8 0x30#8
      [(0x0200, 0x49#8), (0x0201, 0xFF#8)]) =
      some ⟨0x00#8, 0x00#8, 0x00#8, 0xFD#8, 0x0202#16, 0x32#8, 2, 2⟩ := by decide

/-- EOR IMM. -/
theorem test_logic_6 :
    after (start 0x0200#16 0x8F#8 0x00#8 0x00#8 0xFD#8 0x30#8
      [(0x0200, 0x49#8), (0x0201, 0x0F#8)]) =
      some ⟨0x80#8, 0x00#8, 0x00#8, 0xFD#8, 0x0202#16, 0xB0#8, 2, 2⟩ := by decide

/-- BIT ZP. -/
theorem test_logic_7 :
    after (start 0x0200#16 0x01#8 0x00#8 0x00#8 0xFD#8 0x30#8
      [(0x0010, 0xC0#8), (0x0200, 0x24#8), (0x0201, 0x10#8)]) =
      some ⟨0x01#8, 0x00#8, 0x00#8, 0xFD#8, 0x0202#16, 0xF2#8, 3, 3⟩ := by decide

/-- BIT ABS. -/
theorem test_logic_8 :
    after (start 0x0200#16 0x40#8 0x00#8 0x00#8 0xFD#8 0xB1#8
      [(0x0200, 0x2C#8), (0x0201, 0x00#8), (0x0202, 0x04#8), (0x0400, 0x40#8)]) =
      some ⟨0x40#8, 0x00#8, 0x00#8, 0xFD#8, 0x0203#16, 0x71#8, 4, 4⟩ := by decide

/-- ASL ACC. -/
theorem test_shift_1 :
    after (start 0x0200#16 0x81#8 0x00#8 0x00#8 0xFD#8 0x30#8
      [(0x0200, 0x0A#8)]) =
      some ⟨0x02#8, 0x00#8, 0x00#8, 0xFD#8, 0x0201#16, 0x31#8, 2, 2⟩ := by decide

/-- ASL ACC. -/
theorem test_shift_2 :
    after (start 0x0200#16 0x40#8 0x00#8 0x00#8 0xFD#8 0x30#8
      [(0x0200, 0x0A#8)]) =
      some ⟨0x80#8, 0x00#8, 0x00#8, 0xFD#8, 0x0201#16, 0xB0#8, 2, 2⟩ := by decide

/-- LSR ACC. -/
theorem test_shift_3 :
    after (start 0x0200#16 0x01#8 0x00#8 0x00#8 0xFD#8 0xB0#8
      [(0x0200, 0x4A#8)]) =
      some ⟨0x00#8, 0x00#8, 0x00#8, 0xFD#8, 0x0201#16, 0x33#8, 2, 2⟩ := by decide

/-- LSR ZP. -/
theorem test_shift_4 :
    let s := start 0x0200#16 0x00#8 0x00#8 0x00#8 0xFD#8 0x30#8
      [(0x0010, 0xFE#8), (0x0200, 0x46#8), (0x0201, 0x10#8)]
    after s = some ⟨0x00#8, 0x00#8, 0x00#8, 0xFD#8, 0x0202#16, 0x30#8, 5, 5⟩ ∧ stored s [0x0010] = some [0x7F#8] := by decide

/-- ROL ACC. -/
theorem test_shift_5 :
    after (start 0x0200#16 0x80#8 0x00#8 0x00#8 0xFD#8 0x31#8
      [(0x0200, 0x2A#8)]) =
      some ⟨0x01#8, 0x00#8, 0x00#8, 0xFD#8, 0x0201#16, 0x31#8, 2, 2⟩ := by decide

/-- ROL ACC. -/
theorem test_shift_6 :
    after (start 0x0200#16 0x80#8 0x00#8 0x00#8 0xFD#8 0x30#8
      [(0x0200, 0x2A#8)]) =
      some ⟨0x00#8, 0x00#8, 0x00#8, 0xFD#8, 0x0201#16, 0x33#8, 2, 2⟩ := by decide

/-- ROR ACC. -/
theorem test_shift_7 :
    after (start 0x0200#16 0x01#8 0x00#8 0x00#8 0xFD#8 0x31#8
      [(0x0200, 0x6A#8)]) =
      some ⟨0x80#8, 0x00#8, 0x00#8, 0xFD#8, 0x0201#16, 0xB1#8, 2, 2⟩ := by decide

/-- ROR ABSX. -/
theorem test_shift_8 :
    let s := start 0x0200#16 0x00#8 0x02#8 0x00#8 0xFD#8 0x30#8
      [(0x0200, 0x7E#8), (0x0201, 0x00#8), (0x0202, 0x04#8), (0x0402, 0x02#8)]
    after s = some ⟨0x00#8, 0x02#8, 0x00#8, 0xFD#8, 0x0203#16, 0x30#8, 7, 7⟩ ∧ stored s [0x0402] = some [0x01#8] := by decide

/-- BCC REL. -/
theorem test_branch_1 :
    after (start 0x0200#16 0x00#8 0x00#8 0x00#8 0xFD#8 0x30#8
      [(0x0200, 0x90#8), (0x0201, 0x10#8)]) =
      some ⟨0x00#8, 0x00#8, 0x00#8, 0xFD#8, 0x0212#16, 0x30#8, 3, 3⟩ := by decide

/-- BCS REL. -/
theorem test_branch_2 :
    after (start 0x0200#16 0x00#8 0x00#8 0x00#8 0xFD#8 0x30#8
      [(0x0200, 0xB0#8), (0x0201, 0x10#8)]) =
      some ⟨0x00#8, 0x00#8, 0x00#8, 0xFD#8, 0x0202#16, 0x30#8, 2, 2⟩ := by decide

/-- BEQ REL. -/
theorem test_branch_3 :
    after (start 0x02F0#16 0x00#8 0x00#8 0x00#8 0xFD#8 0x32#8
      [(0x02F0, 0xF0#8), (0x02F1, 0x0E#8)]) =
      some ⟨0x00#8, 0x00#8, 0x00#8, 0xFD#8, 0x0300#16, 0x32#8, 4, 4⟩ := by decide

/-- BNE REL. -/
theorem test_branch_4 :
    after (start 0x0210#16 0x00#8 0x00#8 0x00#8 0xFD#8 0x30#8
      [(0x0210, 0xD0#8), (0x0211, 0xFB#8)]) =
      some ⟨0x00#8, 0x00#8, 0x00#8, 0xFD#8, 0x020D#16, 0x30#8, 3, 3⟩ := by decide

/-- BMI REL. -/
theorem test_branch_5 :
    after (start 0x0200#16 0x00#8 0x00#8 0x00#8 0xFD#8 0xB0#8
      [(0x0200, 0x30#8), (0x0201, 0x80#8)]) =
      some ⟨0x00#8, 0x00#8, 0x00#8, 0xFD#8, 0x0182#16, 0xB0#8, 4, 4⟩ := by decide

/-- BPL REL. -/
theorem test_branch_6 :
    after (start 0x0200#16 0x00#8 0x00#8 0x00#8 0xFD#8 0xB0#8
      [(0x0200, 0x10#8), (0x0201, 0x3E#8)]) =
      some ⟨0x00#8, 0x00#8, 0x00#8, 0xFD#8, 0x0202#16, 0xB0#8, 2, 2⟩ := by decide

/-- BVC REL. -/
theorem test_branch_7 :
    after (start 0x0200#16 0x00#8 0x00#8 0x00#8 0xFD#8 0x30#8
      [(0x0200, 0x50#8), (0x0201, 0x00#8)]) =
      some ⟨0x00#8, 0x00#8, 0x00#8, 0xFD#8, 0x0202#16, 0x30#8, 3, 3⟩ := by decide

/-- BVS REL. -/
theorem test_branch_8 :
    after (start 0x0200#16 0x00#8 0x00#8 0x00#8 0xFD#8 0x70#8
      [(0x0200, 0x70#8), (0x0201, 0x7F#8)]) =
      some ⟨0x00#8, 0x00#8, 0x00#8, 0xFD#8, 0x0281#16, 0x70#8, 3, 3⟩ := by decide

/-- BNE REL. -/
theorem test_branch_9 :
    after (start 0x0200#16 0x00#8 0x00#8 0x00#8 0xFD#8 0x30#8
      [(0x0200, 0xD0#8), (0x0201, 0xFE#8)]) =
      some ⟨0x00#8, 0x00#8, 0x00#8, 0xFD#8, 0x0200#16, 0x30#8, 3, 3⟩ := by decide

/-- BEQ REL. -/
theorem test_branch_10 :
    after (start 0xFFF0#16 0x00#8 0x00#8 0x00#8 0xFD#8 0x32#8
      [(0xFFF0, 0xF0#8), (0xFFF1, 0x12#8)]) =
      some ⟨0x00#8, 0x00#8, 0x00#8, 0xFD#8, 0x0004#16, 0x32#8, 4, 4⟩ := by decide

/-- JMP ABS. -/
theorem test_jump_1 :
    after (start 0x0200#16 0x00#8 0x00#8 0x00#8 0xFD#8 0x30#8
      [(0x0200, 0x4C#8), (0x0201, 0x00#8), (0x0202, 0xC0#8)]) =
      some ⟨0x00#8, 0x00#8, 0x00#8, 0xFD#8, 0xC000#16, 0x30#8, 3, 3⟩ := by decide

/-- JSR ABS. -/
theorem test_jump_2 :
    let s := start 0x0200#16 0x00#8 0x00#8 0x00#8 0xFD#8 0x30#8
      [(0x0200, 0x20#8), (0x0201, 0x00#8), (0x0202, 0x10#8)]
    after s = some ⟨0x00#8, 0x00#8, 0x00#8, 0xFB#8, 0x1000#16, 0x30#8, 6, 6⟩ ∧ stored s [0x01FD, 0x01FC] = some [0x02#8, 0x02#8] := by decide

/-- JSR ABS. -/
theorem test_jump_3 :
    let s := start 0x0200#16 0x00#8 0x00#8 0x00#8 0x00#8 0x30#8
      [(0x0200, 0x20#8), (0x0201, 0x00#8), (0x0202, 0x10#8)]
    after s = some ⟨0x00#8, 0x00#8, 0x00#8, 0xFE#8, 0x1000#16, 0x30#8, 6, 6⟩ ∧ stored s [0x0100, 0x01FF] = some [0x02#8, 0x02#8] := by decide

/-- RTS IMP. -/
theorem test_jump_4 :
    after (start 0x0200#16 0x00#8 0x00#8 0x00#8 0xFB#8 0x30#8
      [(0x01FC, 0x02#8), (0x01FD, 0x02#8), (0x0200, 0x60#8)]) =
      some ⟨0x00#8, 0x00#8, 0x00#8, 0xFD#8, 0x0203#16, 0x30#8, 6, 6⟩ := by decide

/-- RTS IMP. -/
theorem test_jump_5 :
    after (start 0x0200#16 0x00#8 0x00#8 0x00#8 0xFB#8 0x30#8
      [(0x01FC, 0xFF#8), (0x01FD, 0xFF#8), (0x0200, 0x60#8)]) =
      some ⟨0x00#8, 0x00#8, 0x00#8, 0xFD#8, 0x0000#16, 0x30#8, 6, 6⟩ := by decide

/-- RTI IMP. -/
theorem test_jump_6 :
    after (start 0x0200#16 0x00#8 0x00#8 0x00#8 0xFA#8 0x30#8
      [(0x01FB, 0x20#8), (0x01FC, 0x34#8), (0x01FD, 0x12#8), (0x0200, 0x40#8)]) =
      some ⟨0x00#8, 0x00#8, 0x00#8, 0xFD#8, 0x1234#16, 0x30#8, 6, 6⟩ := by decide

/-- RTI IMP. -/
theorem test_jump_7 :
    after (start 0x0200#16 0x00#8 0x00#8 0x00#8 0xFA#8 0x30#8
      [(0x01FB, 0xFF#8), (0x01FC, 0x00#8), (0x01FD, 0x80#8), (0x0200, 0x40#8)]) =
      some ⟨0x00#8, 0x00#8, 0x00#8, 0xFD#8, 0x8000#16, 0xFF#8, 6, 6⟩ := by decide

/-- BRK IMP. -/
theorem test_jump_8 :
    let s := start 0x0300#16 0x00#8 0x00#8 0x00#8 0xFD#8 0x30#8
      [(0x0300, 0x00#8), (0xFFFE, 0x48#8), (0xFFFF, 0xFF#8)]
    after s = some ⟨0x00#8, 0x00#8, 0x00#8, 0xFA#8, 0xFF48#16, 0x34#8, 7, 7⟩ ∧ stored s [0x01FD, 0x01FC, 0x01FB] = some [0x03#8, 0x02#8, 0x30#8] := by decide

/-- BRK IMP. -/
theorem test_jump_9 :
    let s := start 0x0300#16 0x00#8 0x00#8 0x00#8 0xFD#8 0xFB#8
      [(0x0300, 0x00#8), (0xFFFE, 0x48#8), (0xFFFF, 0xFF#8)]
    after s = some ⟨0x00#8, 0x00#8, 0x00#8, 0xFA#8, 0xFF48#16, 0xFF#8, 7, 7⟩ ∧ stored s [0x01FB] = some [0xFB#8] := by decide

/-- CLC IMP. -/
theorem test_flags_1 :
    after (start 0x0200#16 0x00#8 0x00#8 0x00#8 0xFD#8 0xB1#8
      [(0x0200, 0x18#8)]) =
      some ⟨0x00#8, 0x00#8, 0x00#8, 0xFD#8, 0x0201#16, 0xB0#8, 2, 2⟩ := by decide

/-- SEC IMP. -/
theorem test_flags_2 :
    after (start 0x0200#16 0x00#8 0x00#8 0x00#8 0xFD#8 0x30#8
      [(0x0200, 0x38#8)]) =
      some ⟨0x00#8, 0x00#8, 0x00#8, 0xFD#8, 0x0201#16, 0x31#8, 2, 2⟩ := by decide

/-- CLI IMP. -/
theorem test_flags_3 :
    after (start 0x0200#16 0x00#8 0x00#8 0x00#8 0xFD#8 0x34#8
      [(0x0200, 0x58#8)]) =
      some ⟨0x00#8, 0x00#8, 0x00#8, 0xFD#8, 0x0201#16, 0x30#8, 2, 2⟩ := by decide

/-- SEI IMP. -/
theorem test_flags_4 :
    after (start 0x0200#16 0x00#8 0x00#8 0x00#8 0xFD#8 0x30#8
      [(0x0200, 0x78#8)]) =
      some ⟨0x00#8, 0x00#8, 0x00#8, 0xFD#8, 0x0201#16, 0x34#8, 2, 2⟩ := by decide

/-- CLD IMP. -/
theorem test_flags_5 :
    after (start 0x0200#16 0x00#8 0x00#8 0x00#8 0xFD#8 0x38#8
      [(0x0200, 0xD8#8)]) =
      some ⟨0x00#8, 0x00#8, 0x00#8, 0xFD#8, 0x0201#16, 0x30#8, 2, 2⟩ := by decide

/-- SED IMP. -/
theorem test_flags_6 :
    after (start 0x0200#16 0x00#8 0x00#8 0x00#8 0xFD#8 0x30#8
      [(0x0200, 0xF8#8)]) =
      some ⟨0x00#8, 0x00#8, 0x00#8, 0xFD#8, 0x0201#16, 0x38#8, 2, 2⟩ := by decide

/-- CLV IMP. -/
theorem test_flags_7 :
    after (start 0x0200#16 0x00#8 0x00#8 0x00#8 0xFD#8 0x70#8
      [(0x0200, 0xB8#8)]) =
      some ⟨0x00#8, 0x00#8, 0x00#8, 0xFD#8, 0x0201#16, 0x30#8, 2, 2⟩ := by decide

/-- NOP IMP. -/
theorem test_flags_8 :
    after (start 0x0200#16 0x12#8 0x00#8 0x00#8 0xFD#8 0x32#8
      [(0x0200, 0xEA#8)]) =
      some ⟨0x12#8, 0x00#8, 0x00#8, 0xFD#8, 0x0201#16, 0x32#8, 2, 2⟩ := by decide

/-! ### Interrupts, faults and refusals -/

/-- The common start of the interrupt vectors: handlers `NOP; RTI` at 0x0300 (NMI) and 0x0400 (IRQ), `code` at 0x0200. -/
def intStart (pc : Addr) (p : Byte) (code : Memory) : State :=
  start pc 0x00#8 0x00#8 0x00#8 0xFD#8 p
    (code ++ [(0x0300, 0xEA#8), (0x0301, 0x40#8), (0x0400, 0xEA#8), (0x0401, 0x40#8), (0xFFFB, 0x03#8), (0xFFFF, 0x04#8)])

/-- The three bytes an entry pushes from S = 0xFD. -/
def stackTop : List Nat := [0x01FB, 0x01FC, 0x01FD]

/-- int-1, step 1: NMI is serviced although I = 1. -/
theorem test_int_1 :
    let s := { intStart 0x0200#16 0x34#8 [(0x0200, 0xEA#8)] with nmiPending := true }
    after s = some ⟨0x00#8, 0x00#8, 0x00#8, 0xFA#8, 0x0300#16, 0x34#8, 7, 7⟩ ∧
      stored s stackTop = some [0x24#8, 0x00#8, 0x02#8] := by decide

/-- int-2, step 1: IRQ is held off while I = 1. -/
theorem test_int_2 :
    after { intStart 0x0200#16 0x34#8 [(0x0200, 0xEA#8)] with irqPending := true } =
      some ⟨0x00#8, 0x00#8, 0x00#8, 0xFD#8, 0x0201#16, 0x34#8, 2, 2⟩ := by decide

/-- int-3, step 1: IRQ with I = 0; the pushed byte has B = 0. -/
theorem test_int_3 :
    let s := { intStart 0x0200#16 0x31#8 [(0x0200, 0xEA#8)] with irqPending := true }
    after s = some ⟨0x00#8, 0x00#8, 0x00#8, 0xFA#8, 0x0400#16, 0x35#8, 7, 7⟩ ∧
      stored s stackTop = some [0x21#8, 0x00#8, 0x02#8] := by decide

/-- int-4, step 1: NMI goes first, the IRQ latch stays set. -/
theorem test_int_4 :
    (match step { intStart 0x0200#16 0x30#8 [(0x0200, 0xEA#8)] with nmiPending := true, irqPending := true } with
      | .next t => some (t.pc, t.nmiPending, t.irqPending)
      | _ => none) = some (0x0300#16, false, true) := by decide

/-- int-5, step 2: the handler's first instruction runs before the next poll. -/
theorem test_int_5 :
    after { intStart 0x0300#16 0x34#8 [] with nmiPending := true, lastWasService := true } =
      some ⟨0x00#8, 0x00#8, 0x00#8, 0xFD#8, 0x0301#16, 0x34#8, 2, 2⟩ := by decide

/-- int-6, step 2: with `IRQ_MASK_LATENCY = 0` the IRQ is serviced right after CLI. -/
theorem test_int_6 :
    let s := { intStart 0x0201#16 0x30#8 [(0x0201, 0xEA#8)] with irqPending := true, iAtLastBoundary := true, lastWasMaskOp := true }
    after s = some ⟨0x00#8, 0x00#8, 0x00#8, 0xFA#8, 0x0400#16, 0x34#8, 7, 7⟩ ∧
      stored s stackTop = some [0x20#8, 0x01#8, 0x02#8] := by decide

/-- A state whose `IRQ_MASK_LATENCY` is 1. -/
def late (s : State) : State := { s with cfg := { s.cfg with irqLatency := .one } }

/-- int-7, step 2: with `IRQ_MASK_LATENCY = 1` one more instruction runs. -/
theorem test_int_7 :
    after (late { intStart 0x0201#16 0x30#8 [(0x0201, 0xEA#8)] with
      irqPending := true, iAtLastBoundary := true, lastWasMaskOp := true }) =
      some ⟨0x00#8, 0x00#8, 0x00#8, 0xFD#8, 0x0202#16, 0x30#8, 2, 2⟩ := by decide

/-- int-9, step 2: with `IRQ_MASK_LATENCY = 1` the IRQ still gets in after SEI, and pushes I = 1. -/
theorem test_int_9 :
    let s := late { intStart 0x0201#16 0x34#8 [(0x0201, 0xEA#8)] with
      irqPending := true, iAtLastBoundary := false, lastWasMaskOp := true }
    after s = some ⟨0x00#8, 0x00#8, 0x00#8, 0xFA#8, 0x0400#16, 0x34#8, 7, 7⟩ ∧
      stored s stackTop = some [0x24#8, 0x01#8, 0x02#8] := by decide

/-- illegal-1, and int-11: the record, and a halted machine takes no step. -/
theorem test_illegal_1 :
    (match step (start 0x0200#16 0x11#8 0x00#8 0x00#8 0xFD#8 0x30#8 [(0x0200, 0x02#8)]) with
      | .fault f => some f
      | _ => none) = some (.illegalOpcode 0x0200#16 0x02#8) ∧
    (match step { State.reset with halted := some (.illegalOpcode 0x0200#16 0x02#8), nmiPending := true } with
      | .fault f => some f
      | _ => none) = some (.illegalOpcode 0x0200#16 0x02#8) := by decide

/-- illegal-5: after the fault the machine is halted, and PC, A, S, P and `Cycles` are as they were. -/
theorem test_illegal_5 :
    let t := (start 0x0200#16 0x11#8 0x00#8 0x00#8 0xFD#8 0x30#8 [(0x0200, 0xEB#8)]).advance
    t.halted = some (.illegalOpcode 0x0200#16 0xEB#8) ∧ t.pc = 0x0200#16 ∧ t.a = 0x11#8 ∧ t.sp = 0xFD#8 ∧ t.cycles = 0 := by decide

/-- A map that declares all RAM with one configuration invalid (R67). -/
def oneInvalid : BusMap :=
  .table [⟨[0#3, 1#3, 2#3, 3#3, 4#3, 5#3, 6#3, 7#3], 0x0000#16, 0xFFFF#16, .ram, .ram⟩] [0b001#3]

/-- `STA $01`, with A = 0x01 and PortDDR = 0x07, under that map. -/
def badStore : State :=
  { start 0x0200#16 0x01#8 0x00#8 0x00#8 0xFD#8 0x30#8 [(0x0200, 0x85#8), (0x0201, 0x01#8)] with
    cfg := { Config.default with busMap := oneInvalid } }

/-- `INC $01`, with PortDATA = 0x00 and PortDDR = 0x07, under that map. -/
def badInc : State :=
  { start 0x0200#16 0x01#8 0x00#8 0x00#8 0xFD#8 0x30#8 [(0x0200, 0xE6#8), (0x0201, 0x01#8)] with
    cfg := { Config.default with busMap := oneInvalid } }

/-- R67, R281. -/
theorem test_invalid_bank_config : step badStore = .fault (.invalidBankConfig 0x0200#16 0x85#8) := rfl

/-- R176, R284: `ADC #$0A` in decimal mode under `VALID_ONLY` is refused. -/
theorem test_valid_only_refuses :
    (match step { start 0x0200#16 0x00#8 0x00#8 0x00#8 0xFD#8 0x38#8 [(0x0200, 0x69#8), (0x0201, 0x0A#8)] with
        cfg := { Config.default with decimal := .validOnly } } with
      | .refused r => some r
      | _ => none) = some (.invalidBcd 0x00#8 0x0A#8) := by decide

/-- R127, R284: the fetch of an opcode in the I/O window is refused under `NMOS_DUMMY`. -/
theorem test_nmos_dummy_refuses_io :
    step { State.reset with pc := 0xD000#16, cfg := { Config.default with busFidelity := .nmosDummy } } =
      .refused (.ioFetchUnderDummy 0xD000#16) := rfl

/-! ### Bank configuration, reset, pacer -/

/-- What reads of 0xA000, 0xD000 and 0xE000 select under a port setting. -/
def selects (ddr data : Byte) : BitVec 3 × Source × Source × Source :=
  let s := { State.reset with portDDR := ddr, portDATA := data }
  (s.bankCfg, s.select 0xA000#16 .read, s.select 0xD000#16 .read, s.select 0xE000#16 .read)

/-- bank-1 to bank-8. -/
theorem test_bank_vectors :
    selects 0x00#8 0x00#8 = (0b111#3, .basic, .io, .kernal) ∧ selects 0x2F#8 0x37#8 = (0b111#3, .basic, .io, .kernal) ∧
    selects 0x2F#8 0x36#8 = (0b110#3, .ram, .io, .kernal) ∧ selects 0x2F#8 0x35#8 = (0b101#3, .ram, .io, .ram) ∧
    selects 0x2F#8 0x33#8 = (0b011#3, .basic, .char, .kernal) ∧ selects 0x2F#8 0x34#8 = (0b100#3, .ram, .ram, .ram) ∧
    selects 0x07#8 0x00#8 = (0b000#3, .ram, .ram, .ram) ∧ selects 0x01#8 0x00#8 = (0b110#3, .ram, .io, .kernal) := by decide

/-- P6, the second step: `STA $A000` with BASIC mapped writes the RAM beneath. -/
theorem test_bank_store_under_rom :
    stored { start 0x0202#16 0x55#8 0x00#8 0x00#8 0xFD#8 0x34#8 [(0x0202, 0x8D#8), (0x0203, 0x00#8), (0x0204, 0xA0#8)] with
      portDDR := 0x2F#8, portDATA := 0x37#8 } [0xA000] = some [0x55#8] := by decide

/-- P6, the sixth step: `STA $01` writes the output register, not RAM. -/
theorem test_bank_store_port :
    (match step { start 0x020B#16 0x36#8 0x00#8 0x00#8 0xFD#8 0x34#8 [(0x020B, 0x85#8), (0x020C, 0x01#8)] with
        portDDR := 0x2F#8, portDATA := 0x37#8 } with
      | .next t => some (t.portDATA, t.portDDR, t.ram.read 1, t.bankCfg)
      | _ => none) = some (0x36#8, 0x2F#8, 0x00#8, 0b110#3) := by decide

/-- The configuration of L1-2: a KERNAL image with the reset vector 0xFCE2. -/
def vectorCfg : Config := { Config.default with romKernal := [(0x1FFC, 0xE2#8), (0x1FFD, 0xFC#8)] }

/-- Draws of a reset, none of them zero. -/
def someDraws : ResetDraws where
  a := 0x12#8
  x := 0x34#8
  y := 0x56#8
  n := true
  v := false
  d := true
  z := true
  c := false

/-- L1-2: power-on. -/
theorem test_reset_vector :
    let t := State.powerOn vectorCfg someDraws 0xFF#8 [(0x0000, 0x01#8)]
    t.pc = 0xFCE2#16 ∧ t.sp = 0xFD#8 ∧ t.p = ⟨true, false, true, true, true, false⟩ ∧ t.a = 0x12#8 ∧ t.cycles = 0 ∧
      t.portDDR = 0x00#8 ∧ t.portDATA = 0xFF#8 := by decide

/-- R288: without credit the pacer grants a batch and the core waits; with credit it takes one whole step. -/
theorem test_pacer :
    let s := start 0x0200#16 0x00#8 0x00#8 0x00#8 0xFD#8 0x30#8 [(0x0200, 0xEA#8)]
    (match pacedTick 0 s with | .next (c, t) => some (c, t.pc) | _ => none) = some (1, 0x0200#16) ∧
    (match pacedTick 1 s with | .next (c, t) => some (c, t.pc) | _ => none) = some (-1, 0x0201#16) := by decide

/-! ### Witnesses: for each obligation with hypotheses, values that meet them -/

/-- `NOP` at 0x0200 in environment E0. -/
def nopState : State := start 0x0200#16 0x12#8 0x34#8 0x56#8 0xFD#8 0x30#8 [(0x0200, 0xEA#8)]

/-- A state with `BUS_FIDELITY = NMOS_DUMMY`. -/
def dummy (s : State) : State := { s with cfg := { s.cfg with busFidelity := .nmosDummy } }

theorem test_witness_PowerOnLeavesTheResetValues : vectorCfg.busMap = .c64 := rfl

theorem test_witness_ConfigurationIsCheckedOnceBeforeReset :
    ∃ s, boot (raw "NTSC" 8192 8192 4096) someDraws 0xFF#8 [] = .ok s ∧ (raw "NTSC" 8192 8192 4096).basic = some (image 8192) ∧
      (raw "NTSC" 8192 8192 4096).kernal = some (image 8192) ∧ (raw "NTSC" 8192 8192 4096).char = some (image 4096) := by
  have h : ∃ s, boot (raw "NTSC" 8192 8192 4096) someDraws 0xFF#8 [] = .ok s := by
    simp [boot, raw, RawConfig.check, checkClock, checkRom, RomName.size]
  exact h.imp fun _ hs => ⟨hs, rfl, rfl, rfl⟩

theorem test_witness_EncodeOfDecodeIsTheBytes :
    decode [0xFE#8, 0xFF#8, 0x04#8, 0xEA#8] = .ok (.incAbsx 0x04FF#16, [0xEA#8]) := rfl

/-- A three-byte instruction that wraps past 0xFFFF: its operand bytes are the port registers. -/
def wrapFetch : State := start 0xFFFF#16 0x00#8 0x00#8 0x00#8 0xFD#8 0x30#8 [(0xFFFF, 0x4C#8)]

theorem test_witness_StepRunsTheDecodedInstruction :
    nopState.halted = none ∧ nopState.poll = none ∧ nopState.fetchRefused nopState.pc = false ∧
    decode [nopState.peek 0x0200#16, nopState.peek 0x0201#16, nopState.peek 0x0202#16] = .ok (.nop, [0x00#8, 0x00#8]) ∧
    wrapFetch.halted = none ∧ wrapFetch.poll = none ∧
    (∀ k, k < 3 → wrapFetch.fetchRefused (Spec.addr (wrapFetch.pc.toNat + k)) = false) ∧
    wrapFetch.peek wrapFetch.pc = 0x4C#8 ∧ wrapFetch.peek (Spec.addr (wrapFetch.pc.toNat + 1)) = 0x07#8 := by decide

theorem test_witness_StepRunsTheDecodedInstruction_pc :
    (∀ a, a ∈ Spec.pcReads .nop (Spec.fetched 1 nopState.pc nopState) → nopState.fetchRefused a = false) ∧
    ∀ i a, a ∈ Spec.pcReads i (Spec.fetched i.form.mode.length wrapFetch.pc wrapFetch) → wrapFetch.fetchRefused a = false :=
  ⟨fun a _ => fetchRefused_logical rfl a, fun _ a _ => fetchRefused_logical rfl a⟩

theorem test_witness_StepRunsTheDecodedInstruction_decodes :
    ∃ i rest, decode [wrapFetch.peek wrapFetch.pc, (Spec.fetched 1 wrapFetch.pc wrapFetch).peek (Spec.addr (wrapFetch.pc.toNat + 1)),
      (Spec.fetched 2 wrapFetch.pc wrapFetch).peek (Spec.addr (wrapFetch.pc.toNat + 2))] = .ok (i, rest) :=
  ⟨_, _, rfl⟩

theorem test_witness_IllegalOpcodeFaultsAndCommitsNothing :
    let s := start 0xFFFF#16 0x00#8 0x00#8 0x00#8 0xFD#8 0x30#8 [(0xFFFF, 0xFF#8)]
    s.halted = none ∧ s.poll = none ∧ s.fetchRefused s.pc = false ∧ (shapeOf (s.peek s.pc)).isNone = true ∧
      s.select s.pc .read = .ram := by decide

theorem test_witness_HaltedMachineTakesNoStep :
    ({ State.reset with halted := some (.illegalOpcode 0x0200#16 0x02#8) } : State).halted =
      some (.illegalOpcode 0x0200#16 0x02#8) := rfl

theorem test_witness_StepPollsThenServicesOrExecutes :
    let s := { nopState with nmiPending := true, irqPending := true }
    nopState.halted = none ∧ nopState.nmiPending = false ∧ nopState.irqPending = false ∧
    s.fetchRefused s.pc = false ∧ ({ s with lastWasService := true } : State).lastWasService = true ∧
    (s.lastWasService = false ∧ s.nmiPending = true) ∧
    (let t := { s with nmiPending := false }
     t.lastWasService = false ∧ t.nmiPending = false ∧ t.irqPending = true ∧ t.effectiveI = false ∧
       t.fetchRefused t.pc = false) ∧
    (let t := { s with nmiPending := false, p := { s.p with i := true } }
     t.nmiPending = false ∧ t.effectiveI = true) := by decide

theorem test_witness_StepPollsThenServicesOrExecutes_after_service :
    ∃ t, step { nopState with nmiPending := true, irqPending := true, lastWasService := true } = .next t := ⟨_, rfl⟩

/-- `CLI` at 0x0200 with I = 1. -/
def cliState : State := start 0x0200#16 0x00#8 0x00#8 0x00#8 0xFD#8 0x34#8 [(0x0200, 0x58#8)]

theorem test_witness_IrqMaskAfterAnInstruction :
    (cliState.halted = none ∧ cliState.poll = none ∧ ∃ t u, cliState.fetch = .next (.cli, u) ∧ step cliState = .next t) ∧
    ((late cliState).halted = none ∧ (late cliState).poll = none ∧
      ∃ t u, (late cliState).fetch = .next (.cli, u) ∧ step (late cliState) = .next t) :=
  ⟨⟨rfl, rfl, _, _, rfl, rfl⟩, ⟨rfl, rfl, _, _, rfl, rfl⟩⟩

theorem test_witness_IrqMaskAfterAnInstruction_latency_zero : cliState.cfg.irqLatency = .zero := rfl

/-- The stack page of E0 is RAM, also at its ends; S = 0x01 wraps within the service. -/
theorem test_witness_ServiceSavesExactlyThreeBytes :
    ({ nopState with sp := 0x01#8 } : State).ram.wf = true ∧
      ∀ v, ({ nopState with sp := 0x01#8 } : State).select (stackAddr v) .write = .ram :=
  ⟨by decide, fun v => select_c64_stack rfl v .write⟩

theorem test_witness_RtiResumesExactlyWhatWasInterrupted :
    nopState.ram.wf = true ∧
      ∀ v, nopState.select (stackAddr v) .write = .ram ∧ nopState.select (stackAddr v) .read = .ram :=
  ⟨by decide, fun v => ⟨select_c64_stack rfl v .write, select_c64_stack rfl v .read⟩⟩

theorem test_witness_RtsReturnsAfterTheJsr :
    State.reset.ram.wf = true ∧
      ∀ v, State.reset.select (stackAddr v) .write = .ram ∧ State.reset.select (stackAddr v) .read = .ram :=
  ⟨by decide, fun v => ⟨select_c64_stack rfl v .write, select_c64_stack rfl v .read⟩⟩

/-- Both ends of every range of R61, and what reset selects there. -/
theorem test_witness_C64MapSelects :
    State.reset.cfg.busMap = .c64 ∧
    [0x0000#16, 0x0001#16, 0x0002#16, 0x9FFF#16, 0xA000#16, 0xBFFF#16, 0xC000#16, 0xCFFF#16, 0xD000#16, 0xDFFF#16, 0xE000#16,
      0xFFFF#16].map (State.reset.select · .read) =
      [.port, .port, .ram, .ram, .basic, .basic, .ram, .ram, .io, .io, .kernal, .kernal] := by decide

/-- A map whose one row names BASIC for reads and for writes, at one address I/O for writes. -/
def romWrites : State :=
  { State.reset with
    cfg := { Config.default with
      busMap := .table [⟨[7#3], 0xBFFF#16, 0xBFFF#16, .basic, .io⟩, ⟨[7#3], 0xA000#16, 0xBFFE#16, .basic, .basic⟩] [] } }

/-- R63: a write under a ROM reaches the RAM beneath under this map too. -/
theorem test_tableMap_writes_under_rom :
    (romWrites.memWrite 0xA000#16 0x55#8).ram.read 0xA000 = 0x55#8 ∧ (romWrites.memWrite 0xBFFF#16 0x66#8).ram.read 0xBFFF = 0x66#8 ∧
    (romWrites.memWrite 0xBFFF#16 0x66#8).ioLog = [] := by decide

theorem test_witness_WriteUnderRomReachesTheRamBeneath :
    romWrites.ram.wf = true ∧ romWrites.select 0xBFFF#16 .read = .basic ∧
    State.reset.cfg.busMap = .c64 ∧ State.reset.ram.wf = true ∧ State.reset.select 0xA000#16 .read = .basic ∧
    State.reset.select 0xFFFF#16 .read = .kernal ∧
    ({ State.reset with portDDR := 0x2F#8, portDATA := 0x33#8 } : State).select 0xDFFF#16 .read = .char ∧
    ({ State.reset.memWrite 0xA000#16 0x55#8 with portDDR := 0x07#8 } : State).ram = (State.reset.memWrite 0xA000#16 0x55#8).ram ∧
    ({ State.reset.memWrite 0xA000#16 0x55#8 with portDDR := 0x07#8 } : State).select 0xA000#16 .read = .ram := by decide

theorem test_witness_NoStepChangesTheConfigurationOrTheRamUnderThePort : ∃ t, step nopState = .next t := ⟨_, rfl⟩

theorem test_witness_ReadReturnsTheMostRecentWrite :
    State.reset.ram.wf = true ∧ State.reset.select 0x0002#16 .write = .ram ∧ State.reset.select 0x0002#16 .read = .ram ∧
    0xA000#16 ≠ 0x0002#16 ∧ State.reset.select 0xA000#16 .read = .basic ∧ State.reset.select 0xE000#16 .read = .kernal ∧
    State.reset.select 0x9FFF#16 .read = .ram := by decide

/-- The RAM bytes just outside page 1. -/
theorem test_witness_PushesWrapWithinPageOne :
    (255 < 256 ∨ 512 ≤ 255) ∧ (512 < 256 ∨ 512 ≤ 512) ∧
      (Spec.pushes 3 0x77#8 { nopState with sp := 0x01#8 }).ram.read 512 = nopState.ram.read 512 := by decide

theorem test_witness_InvalidBankConfigurationFaults :
    (Spec.storedRegister (Instr.staZp 0x01#8).mnemonic badStore = some 0x01#8 ∧ badStore.pointerRefused (.zp 0x01#8) = none ∧
      (badStore.writeDummy (.zp 0x01#8) (badStore.resolve (.zp 0x01#8))).bankWriteInvalid
        (badStore.resolve (.zp 0x01#8)).ea 0x01#8 = true) ∧
    badStore.halted = none ∧ State.reset.cfg.busMap = .c64 := by decide

theorem test_witness_InvalidBankConfigurationFaults_halts :
    badStore.halted = none ∧ step badStore = .fault (.invalidBankConfig 0x0200#16 0x85#8) ∧
      exec (.staZp 0x01#8) badStore = .fault (.invalidBankConfig 0x0200#16 0x85#8) := ⟨rfl, rfl, rfl⟩

theorem test_witness_InvalidBankConfigurationFaults_rmw :
    let s := { badInc with portDDR := 0x00#8, portDATA := 0xFF#8, cfg := { badInc.cfg with busMap := .table [] [0b111#3] } }
    (∃ r, Spec.modify (Instr.incZp 0x00#8).mnemonic (s.rmwByte (.zp 0x00#8)) s.p = some r ∧ s.pointerRefused (.zp 0x00#8) = none ∧
      (s.afterRmwRead (.zp 0x00#8)).rmwInvalid (s.resolve (.zp 0x00#8)).ea (s.rmwByte (.zp 0x00#8)) r.1 = true) :=
  ⟨_, rfl, rfl, rfl⟩

/-- A form of each of the two lists. -/
theorem test_witness_EffectiveAddressOfEveryMode :
    (MemForm.zpx 0xFF#8 = .zpx 0xFF#8 ∧ (nopState.resolve (.zpx 0xFF#8)).ea = 0x0033#16) ∧
    (MemForm.absy 0xFFFF#16 = .absy 0xFFFF#16 ∧ (nopState.resolve (.absy 0xFFFF#16)).ea = 0x0055#16) := by decide

/-- Both fidelities; a page crossed and not crossed; a mode that indexes a 16-bit base and one that does not. -/
theorem test_witness_DataAccessesOfEachBusFidelity :
    nopState.cfg.busFidelity = .logical ∧ (dummy nopState).cfg.busFidelity = .nmosDummy ∧
    ((dummy nopState).resolve (.absx 0x12CC#16)).cross = true ∧ ((dummy nopState).resolve (.absx 0x12CB#16)).cross = false ∧
    MemForm.mode (.absx 0x12CC#16) = .ABSX ∧
    ¬ (MemForm.mode (.zp 0x10#8) = .ABSX ∨ MemForm.mode (.zp 0x10#8) = .ABSY ∨ MemForm.mode (.zp 0x10#8) = .INDY) := by decide

/-- A map whose page 0 is the I/O window. -/
def ioPageZero : State :=
  dummy { nopState with
    cfg := { Config.default with
      busMap := .table [⟨[0#3, 1#3, 2#3, 3#3, 4#3, 5#3, 6#3, 7#3], 0x0000#16, 0x00FF#16, .io, .io⟩] [] } }

theorem test_witness_NmosDummyRefusesTheIoWindow :
    (let s := dummy { State.reset with pc := 0xDFFF#16 }
     s.halted = none ∧ s.poll = none ∧ s.cfg.busFidelity = .nmosDummy ∧ s.select s.pc .read = .io) ∧
    ioPageZero.cfg.busFidelity = .nmosDummy ∧ ioPageZero.select (Spec.addr (0xFF#8).toNat) .read = .io ∧
    ioPageZero.select (Spec.addr (((0x01#8).toNat + 1) % 256)) .read = .io ∧
    ioPageZero.select (Spec.addr (0x01#8).toNat) .read = .port ∧ nopState.cfg.busFidelity = .logical ∧
    (Instr.ldaIndx (0xFF#8 - ioPageZero.x)).form = .mem (.indx (0xFF#8 - ioPageZero.x)) ∧
    (Instr.staIndy 0x01#8).form = .mem (.indy 0x01#8) ∧
    ioPageZero.pointerRefused (.indy 0x01#8) = some 0x01#8 ∧ (dummy nopState).pointerRefused (.indy 0xFF#8) = none := by decide

/-- LDA zp whose opcode is the last byte of RAM and whose operand is the first of the I/O window. -/
def operandInIo : State := dummy { State.reset with pc := 0xCFFF#16, ram := [(0xCFFF, 0xA5#8)] }

/-- R127, R284: the operand byte is refused. -/
theorem test_witness_NmosDummyRefusesTheIoWindow_operand :
    operandInIo.halted = none ∧ operandInIo.poll = none ∧ operandInIo.fetchRefused 0xCFFF#16 = false ∧
    operandInIo.fetchRefused 0xD000#16 = true ∧ opcodeLength (operandInIo.peek operandInIo.pc) = some 2 ∧
    step operandInIo = .refused (.ioFetchUnderDummy 0xD000#16) :=
  ⟨rfl, by decide, by decide, by decide, by decide, rfl⟩

/-- `NMOS_DUMMY` after reset, with the given PC and RAM: the I/O window is mapped at 0xD000 to 0xDFFF. -/
def atIo (pc : Addr) (mem : Memory) : State := dummy { State.reset with pc := pc, ram := mem }

/-- R127: a service with PC in the window is refused, and one with PC below it is not. -/
theorem test_witness_NmosDummyRefusesTheIoWindow_service :
    (let s := { atIo 0xD000#16 [] with nmiPending := true }
     s.halted = none ∧ s.poll = some .nmi ∧ step s = .refused (.ioPcUnderDummy 0xD000#16)) ∧
    (let s := { atIo 0xCFFF#16 [] with nmiPending := true }
     s.halted = none ∧ s.poll = some .nmi ∧ ∃ t, step s = .next t) := ⟨⟨rfl, rfl, rfl⟩, rfl, rfl, _, rfl⟩

/-- R127: RTS and a taken branch next to the window are refused. -/
theorem test_witness_NmosDummyRefusesTheIoWindow_pc :
    (let s := atIo 0xCFFF#16 [(0xCFFF, 0x60#8)]
     s.halted = none ∧ s.poll = none ∧ (∃ u, s.fetch = .next (.rts, u)) ∧ step s = .refused (.ioPcUnderDummy 0xD000#16)) ∧
    (let s := atIo 0xCFFE#16 [(0xCFFE, 0xD0#8), (0xCFFF, 0xFE#8)]
     s.halted = none ∧ s.poll = none ∧ (∃ u, s.fetch = .next (.bne 0xFE#8, u)) ∧
       step s = .refused (.ioPcUnderDummy 0xD000#16)) :=
  ⟨⟨rfl, rfl, ⟨_, rfl⟩, rfl⟩, rfl, rfl, ⟨_, rfl⟩, rfl⟩

/-- A branch not taken and an immediate load make no dummy read of PC: they run next to the window. -/
theorem test_no_dummy_read_of_pc :
    (∃ t, step (atIo 0xCFFE#16 [(0xCFFE, 0xF0#8), (0xCFFF, 0xFE#8)]) = .next t) ∧
    ∃ t, step (atIo 0xCFFE#16 [(0xCFFE, 0xA9#8), (0xCFFF, 0xFE#8)]) = .next t := ⟨⟨_, rfl⟩, ⟨_, rfl⟩⟩

theorem test_witness_EveryInstructionCompletesUnderTheDefaults :
    State.reset.cfg.busMap = .c64 ∧ NeverRefuses State.reset.cfg := ⟨rfl, rfl, rfl⟩

/-- The operand of a read-class instruction, immediate and in memory: what the loads, arithmetic, compares and logic assume. -/
theorem test_witness_LoadsCompleteAndSetNZ :
    Spec.operand nopState (Instr.ldaImm 0xFF#8).form = some ⟨0xFF#8, nopState, 0⟩ ∧
    (∃ o, Spec.operand nopState (Instr.ldxZp 0xFF#8).form = some o) ∧
    (∃ o, Spec.operand (dummy nopState) (Instr.ldyAbsx 0xFFFF#16).form = some o) ∧
    (∃ o, Spec.operand (dummy nopState) (Instr.cmpIndy 0xFF#8).form = some o) :=
  ⟨rfl, ⟨_, rfl⟩, ⟨_, rfl⟩, ⟨_, rfl⟩⟩

theorem test_witness_StoresCompleteWithOneWrite :
    Spec.storedRegister (Instr.staAbsx 0xFFFF#16).mnemonic nopState = some 0x12#8 ∧
    Spec.storedRegister (Instr.stxZpy 0xFF#8).mnemonic nopState = some 0x34#8 ∧
    Spec.storedRegister (Instr.styAbs 0x0001#16).mnemonic nopState = some 0x56#8 ∧
    nopState.pointerRefused (.absx 0xFFFF#16) = none ∧
    (nopState.writeDummy (.absx 0xFFFF#16) (nopState.resolve (.absx 0xFFFF#16))).bankWriteInvalid
      (nopState.resolve (.absx 0xFFFF#16)).ea 0x12#8 = false := by decide

/-- Bytes that differ in bits 4 and 5 only. -/
theorem test_witness_PackedStatusByte :
    ∀ j, j < 8 → j ≠ 4 → j ≠ 5 → (0xC3#8).getLsbD j = (0xF3#8).getLsbD j := by decide

theorem test_witness_BinaryAddAndSubtractComplete :
    (∃ o, Spec.operand nopState (Instr.adcImm 0xFF#8).form = some o) ∧ (∃ o, Spec.operand nopState (Instr.sbcZp 0x00#8).form = some o) ∧
      nopState.p.d = false := ⟨⟨_, rfl⟩, ⟨_, rfl⟩, rfl⟩

/-- `D = 1`, A = 0x99, under the decimal fidelity `f`. -/
def decimalState (f : DecimalFidelity) : State :=
  { nopState with a := 0x99#8, p := { nopState.p with d := true }, cfg := { nopState.cfg with decimal := f } }

theorem test_witness_DecimalAddAndSubtractComplete :
    (∃ o, Spec.operand (decimalState .nmosExact) (Instr.adcImm 0x0A#8).form = some o ∧ (decimalState .nmosExact).p.d = true ∧
      (decimalState .nmosExact).cfg.decimal = .nmosExact) ∧
    (∃ o, Spec.operand (decimalState .validOnly) (Instr.sbcImm 0x99#8).form = some o ∧ (decimalState .validOnly).p.d = true ∧
      Spec.isBcd (decimalState .validOnly).a ∧ Spec.isBcd o.value) ∧
    (∃ o, Spec.operand (decimalState .validOnly) (Instr.sbcImm 0x9A#8).form = some o ∧ (decimalState .validOnly).p.d = true ∧
      (decimalState .validOnly).cfg.decimal = .validOnly ∧ ¬ (Spec.isBcd (decimalState .validOnly).a ∧ Spec.isBcd o.value)) :=
  ⟨⟨_, rfl, rfl, rfl⟩, ⟨_, rfl, rfl, by unfold Spec.isBcd; decide, by unfold Spec.isBcd; decide⟩,
    ⟨_, rfl, rfl, rfl, by unfold Spec.isBcd; decide⟩⟩

theorem test_witness_DecimalArithmeticIsDecimal : Spec.isBcd 0x99#8 ∧ Spec.isBcd 0x00#8 := by unfold Spec.isBcd; decide

theorem test_witness_ComparesComplete :
    (∃ o, Spec.operand nopState (Instr.cmpImm 0x12#8).form = some o) ∧ (∃ o, Spec.operand nopState (Instr.cpxImm 0x35#8).form = some o) ∧
      ∃ o, Spec.operand nopState (Instr.cpyAbs 0xFFFF#16).form = some o := ⟨⟨_, rfl⟩, ⟨_, rfl⟩, ⟨_, rfl⟩⟩

theorem test_witness_LogicAndBitComplete :
    (∃ o, Spec.operand nopState (Instr.andIndx 0xCB#8).form = some o) ∧ ∃ o, Spec.operand nopState (Instr.bitAbs 0x0000#16).form = some o :=
  ⟨⟨_, rfl⟩, ⟨_, rfl⟩⟩

theorem test_witness_ReadModifyWriteCompletes :
    ∃ r, (Instr.rorAbsx 0x12CC#16).form = .mem (.absx 0x12CC#16) ∧
      Spec.modify (Instr.rorAbsx 0x12CC#16).mnemonic (nopState.rmwByte (.absx 0x12CC#16)) nopState.p = some r ∧
      (nopState.afterRmwRead (.absx 0x12CC#16)).rmwInvalid (nopState.resolve (.absx 0x12CC#16)).ea
        (nopState.rmwByte (.absx 0x12CC#16)) r.1 = false := ⟨_, rfl, rfl, rfl⟩

theorem test_witness_ReadModifyWriteCompletes_accumulator :
    ∃ r, Instr.rolAcc.form = .acc ∧ Spec.modify Instr.rolAcc.mnemonic nopState.a nopState.p = some r := ⟨_, rfl, rfl⟩

/-- A branch taken and one not taken. -/
theorem test_witness_BranchesComplete :
    (Instr.bne 0x80#8).form = .rel 0x80#8 ∧ Spec.taken (Instr.bne 0x80#8).mnemonic nopState.p = some true ∧
    (Instr.beq 0x7F#8).form = .rel 0x7F#8 ∧ Spec.taken (Instr.beq 0x7F#8).mnemonic nopState.p = some false := ⟨rfl, rfl, rfl, rfl⟩

theorem test_witness_RegistersAreWrittenOnlyByTheirInstructions :
    (∃ t, exec (.cmpImm 0x01#8) nopState = .next t) ∧ ¬ Spec.writesA (.cmpImm 0x01#8) ∧ ¬ Spec.writesX (.cmpImm 0x01#8) ∧
      ¬ Spec.writesY (.cmpImm 0x01#8) ∧ ¬ Spec.writesS (.cmpImm 0x01#8) :=
  ⟨⟨_, rfl⟩, by unfold Spec.writesA; decide, by unfold Spec.writesX; decide, by unfold Spec.writesY; decide,
    by unfold Spec.writesS; decide⟩

theorem test_witness_FlagsAreWrittenOnlyByTheirInstructions :
    (∃ t, exec (.staZp 0x01#8) nopState = .next t) ∧ ¬ Spec.writesNZ (.staZp 0x01#8) ∧ ¬ Spec.writesV (.staZp 0x01#8) ∧
      ¬ Spec.writesC (.staZp 0x01#8) ∧ ¬ Spec.writesI (.staZp 0x01#8) ∧ ¬ Spec.writesD (.staZp 0x01#8) :=
  ⟨⟨_, rfl⟩, by unfold Spec.writesNZ; decide, by unfold Spec.writesV; decide, by unfold Spec.writesC; decide,
    by unfold Spec.writesI; decide, by unfold Spec.writesD; decide⟩

/-- A store to the last address of RAM leaves its neighbours and both port registers alone; a load stores nothing. -/
theorem test_witness_MemoryChangesOnlyWhereInstructionsStore :
    (∃ t, exec (.staAbs 0xFFFF#16) nopState = .next t) ∧ Spec.storedAt (.staAbs 0xFFFF#16) nopState = [0xFFFF#16] ∧
    0x0000#16 ∉ Spec.storedAt (.staAbs 0xFFFF#16) nopState ∧ 0x0001#16 ∉ Spec.storedAt (.staAbs 0xFFFF#16) nopState ∧
    nopState.select 0xFFFE#16 .read = .ram ∧ (∃ t, exec (.ldaImm 0x01#8) nopState = .next t) ∧
    Spec.storedAt (.ldaImm 0x01#8) nopState = [] :=
  ⟨⟨_, rfl⟩, rfl, by decide, by decide, by decide, ⟨_, rfl⟩, rfl⟩

theorem test_witness_LatchesAreClearedOnlyByTheirService :
    (∃ t, step { nopState with nmiPending := true } = .next t) ∧ ∃ t, step { nopState with irqPending := true } = .next t :=
  ⟨⟨_, rfl⟩, ⟨_, rfl⟩⟩

/-- Each way I changes: a service, SEI, CLI, BRK, PLP, RTI. -/
theorem test_witness_OnlyTheseStepsChangeTheInterruptMask :
    (∃ t, step { nopState with nmiPending := true } = .next t ∧ t.p.i ≠ nopState.p.i) ∧
    (∃ t, step cliState = .next t ∧ t.p.i ≠ cliState.p.i) ∧
    (∃ t, step { nopState with ram := [(0x0200, 0x78#8)] } = .next t ∧ t.p.i ≠ nopState.p.i) ∧
    (∃ t, step { nopState with ram := [] } = .next t ∧ t.p.i ≠ nopState.p.i) ∧
    (∃ t, step { cliState with ram := [(0x0200, 0x28#8)] } = .next t ∧ t.p.i ≠ cliState.p.i) ∧
    (∃ t, step { cliState with ram := [(0x0200, 0x40#8)] } = .next t ∧ t.p.i ≠ cliState.p.i) :=
  ⟨⟨_, rfl, by decide⟩, ⟨_, rfl, by decide⟩, ⟨_, rfl, by decide⟩, ⟨_, rfl, by decide⟩, ⟨_, rfl, by decide⟩, ⟨_, rfl, by decide⟩⟩

theorem test_witness_OnlyAddAndSubtractDependOnD :
    (Instr.cmpImm 0x10#8).mnemonic ∉ [.ADC, .SBC, .PHP, .BRK, .CLD, .SED, .PLP, .RTI] := by decide

theorem test_witness_CycleCostIsExact :
    (∃ t, exec (.ldaAbsx 0x12CC#16) nopState = .next t) ∧ Spec.pageCycles (.ldaAbsx 0x12CC#16) nopState = 1 ∧
    (∃ t, exec (.bne 0x80#8) nopState = .next t) ∧ Spec.branchCycles (.bne 0x80#8) nopState = 2 ∧
    (let s := { nopState with irqPending := true }
     s.halted = none ∧ s.poll = some .irq ∧ ∃ t, step s = .next t) ∧
    ∃ f, step { nopState with ram := [(0x0200, 0x02#8)] } = .fault f :=
  ⟨⟨_, rfl⟩, by decide, ⟨_, rfl⟩, by decide, ⟨by decide, by decide, ⟨_, rfl⟩⟩, ⟨_, rfl⟩⟩

theorem test_witness_EveryStepCostsTwoToSevenCycles :
    (∃ t, step nopState = .next t) ∧ ∃ t, step { nopState with irqPending := true } = .next t := ⟨⟨_, rfl⟩, ⟨_, rfl⟩⟩

theorem test_witness_EveryStepKeepsTheInvariant : nopState.Inv ∧ ∃ t, step nopState = .next t :=
  ⟨⟨by decide, by decide, by decide, by decide⟩, ⟨_, rfl⟩⟩

/-- One tick of each kind, and runs of the unpaced machine that go on, fault and are refused. -/
theorem test_witness_PacingChangesNoState_ticks :
    nopState.cfg.throttle = true ∧ (0 : Int) ≤ 0 ∧ pacedTick (-2) nopState = .next (-1, nopState) ∧ (0 : Int) < 1 ∧
    (∃ t, step nopState = .next t ∧ pacedTick 1 nopState = .next (-1, t)) ∧
    (∃ t, core.run 1 nopState = .next t) ∧ (∃ f, core.run 1 { nopState with ram := [(0x0200, 0x02#8)] } = .fault f) ∧
    (∃ r, core.run 1 (dummy { State.reset with pc := 0xD000#16 }) = .refused r) :=
  ⟨rfl, by decide, rfl, by decide, ⟨_, rfl, rfl⟩, ⟨_, rfl⟩, ⟨_, rfl⟩, ⟨_, rfl⟩⟩

/-- A paced run that goes on, one that faults, one that is refused, one unthrottled. -/
theorem test_witness_PacingChangesNoState :
    (∃ c t, pacedRun 2 0 nopState = .next (c, t)) ∧
    (∃ f, pacedRun 1 1 { nopState with ram := [(0x0200, 0x02#8)] } = .fault f) ∧
    (∃ r, pacedRun 1 1 (dummy { State.reset with pc := 0xD000#16 }) = .refused r) ∧
    (∃ c t, ({ nopState with cfg := { nopState.cfg with throttle := false } } : State).cfg.throttle = false ∧
      pacedRun 1 0 { nopState with cfg := { nopState.cfg with throttle := false } } = .next (c, t)) :=
  ⟨⟨_, _, rfl⟩, ⟨_, rfl⟩, ⟨_, rfl⟩, ⟨_, _, rfl, rfl⟩⟩

theorem test_witness_CollaboratorsLeaveTheRegisters :
    (∀ d, BoundaryEvent.raiseNmi ≠ .reset d) ∧ ∀ d, BoundaryEvent.busWrite 0xFFFF#16 0x01#8 ≠ .reset d :=
  ⟨fun _ h => (nomatch h), fun _ h => (nomatch h)⟩

end Sys2Proof.Tests
end

section
/-! PROOFS. The state: what a read and a write of the 6510 port do (20_memory.md R40, R70, R71), and the packed status byte
(10_state.md R28, R29). -/

namespace Sys2Proof.Machine

/-! ### The port -/

/-- What a port read answers (R70). -/
theorem peek_of_port {s : State} {a : Addr} (h : s.select a .read = .port) : s.peek a = s.readPort a := by
  simp [State.peek, h]

/-- The device sees nothing of a port read; only one of the pins uses up a free value (R70, log 8). -/
theorem afterRead_of_port {s : State} {a : Addr} (h : s.select a .read = .port) :
    s.afterRead a = { s with draws := if a = 0x0000#16 then s.draws else s.draws + 1 } := by
  simp [State.afterRead, State.drawsAfterRead, State.ioLogAfterRead, h]

/-- A port write reaches neither RAM nor the device (R71, R72). -/
theorem memWrite_of_port {s : State} {a : Addr} (h : s.select a .write = .port) (v : Byte) :
    s.memWrite a v =
      { s with portDDR := if a = 0x0000#16 then v else s.portDDR, portDATA := if a = 0x0001#16 then v else s.portDATA } := by
  simp [State.memWrite, State.ramAfterWrite, State.ioLogAfterWrite, h]

/-- Pins 2 to 0 are pulled up, whatever the other pins are (R70). -/
theorem pins_toNat_mod_eight (s : State) : s.pins.toNat % 8 = 7 := by
  have hpins : s.pins.toNat = 8 * (Config.portInput s.draws).toNat + 7 := by
    rw [State.pins, BitVec.toNat_append, ← Nat.shiftLeft_add_eq_or_of_lt (BitVec.isLt _), Nat.shiftLeft_eq, Nat.mul_comm]
    rfl
  omega

/-- The bank configuration as a number: the low three bits of the port's mix (R40). -/
theorem bankCfg_toNat (s : State) : s.bankCfg.toNat = (s.portDATA ||| ~~~s.portDDR).toNat % 8 :=
  BitVec.toNat_setWidth 3 _

/-- Settles O22: both port addresses select the port under every map, and each access to them is read off the rule for the port. -/
theorem portReadsWritesAndBankConfiguration : Obligations.PortReadsWritesAndBankConfiguration := by
  intro s v
  have h0 (d : Dir) : s.select 0x0000#16 d = .port := select_port_of_lt s d (by decide)
  have h1 (d : Dir) : s.select 0x0001#16 d = .port := select_port_of_lt s d (by decide)
  refine ⟨?_, ?_, ⟨s.draws + 1, ?_⟩, ⟨s.pins, pins_toNat_mod_eight s, ?_⟩, ?_, ?_, bankCfg_toNat s⟩
  · exact peek_of_port (h0 .read)
  · exact afterRead_of_port (h0 .read)
  · exact afterRead_of_port (h1 .read)
  · exact peek_of_port (h1 .read)
  · exact memWrite_of_port (h0 .write) v
  · exact memWrite_of_port (h1 .write) v

/-! ### The packed status byte -/

/-- The packed byte as a number: no flag's weight is lost to the truncation (R28). -/
theorem pack_toNat (p : Flags) (b : Bool) :
    (p.pack b).toNat = bitNat p.n * 128 + bitNat p.v * 64 + 32 + bitNat b * 16 + bitNat p.d * 8 + bitNat p.i * 4 +
      bitNat p.z * 2 + bitNat p.c := by
  have hn := bitNat_le_one p.n
  have hv := bitNat_le_one p.v
  have hb := bitNat_le_one b
  have hd := bitNat_le_one p.d
  have hi := bitNat_le_one p.i
  have hz := bitNat_le_one p.z
  have hc := bitNat_le_one p.c
  rw [Flags.pack, BitVec.toNat_ofNat]
  omega

theorem num_eq_bitNat (b : Bool) : Spec.num b = bitNat b := rfl

/-- The model's packed byte is the one of R28. -/
theorem pack_eq_spec (p : Flags) (b : Bool) : p.pack b = Spec.pack p b := by
  simp only [Flags.pack, Spec.pack, Spec.byte, num_eq_bitNat]
  congr 1
  omega

/-- Bit 5 and bit 4 of the packed byte, below the weights of N and V and above those of D, I, Z and C (R28). -/
theorem pack_bits_five_four (p : Flags) (b : Bool) : (p.pack b).toNat / 16 % 4 = 2 + bitNat b := by
  have hb := bitNat_le_one b
  have hd := bitNat_le_one p.d
  have hi := bitNat_le_one p.i
  have hz := bitNat_le_one p.z
  have hc := bitNat_le_one p.c
  rw [pack_toNat]
  omega

theorem pack_getLsbD_five (p : Flags) (b : Bool) : (p.pack b).getLsbD 5 = true := by
  have h := pack_bits_five_four p b
  have hb := bitNat_le_one b
  rw [BitVec.getLsbD, Nat.testBit_eq_decide_div_mod_eq, decide_eq_true_eq]
  omega

theorem pack_getLsbD_four (p : Flags) (b : Bool) : (p.pack b).getLsbD 4 = b := by
  have h := pack_bits_five_four p b
  have hbit : (p.pack b).toNat / 2 ^ 4 % 2 = bitNat b := by
    have hb := bitNat_le_one b
    omega
  rw [BitVec.getLsbD, Nat.testBit_eq_decide_div_mod_eq, hbit]
  cases b <;> rfl

/-- Unpacking reads bits 7, 6, 3, 2, 1 and 0 only (R29). -/
theorem unpackFlags_congr {v w : Byte} (h : ∀ j, j ≠ 4 → j ≠ 5 → v.getLsbD j = w.getLsbD j) : unpackFlags v = unpackFlags w := by
  simp only [unpackFlags, h 7 (by decide) (by decide), h 6 (by decide) (by decide), h 3 (by decide) (by decide),
    h 2 (by decide) (by decide), h 1 (by decide) (by decide), h 0 (by decide) (by decide)]

/-- Settles O35: the packed byte's weights and its bits 5 and 4, and unpacking by the bits it reads. -/
theorem packedStatusByte : Obligations.PackedStatusByte :=
  ⟨fun p b => ⟨pack_eq_spec p b, unpackFlags_pack p b, pack_getLsbD_five p b, pack_getLsbD_four p b⟩,
    fun _ _ => unpackFlags_congr⟩

end Sys2Proof.Machine
end

section
/-! PROOFS. The C64 bus map range by range (20_memory.md R61). -/

namespace Sys2Proof.Machine

/-! ### The bits of the bank configuration as numbers (R40) -/

theorem loram_eq (c : BitVec 3) : c.getLsbD 0 = decide (c.toNat % 2 = 1) := by
  revert c; decide

theorem hiram_eq (c : BitVec 3) : c.getLsbD 1 = decide (c.toNat / 2 % 2 = 1) := by
  revert c; decide

theorem charen_eq (c : BitVec 3) : c.getLsbD 2 = decide (c.toNat / 4 = 1) := by
  revert c; decide

/-! ### The ranges above 0x9FFF; `select_c64_low` has those below -/

/-- Above the port the C64 map answers. -/
theorem select_eq_c64Select {s : State} (h : s.cfg.busMap = .c64) {a : Addr} (ha : 2 ≤ a.toNat) (d : Dir) :
    s.select a d = c64Select s.bankCfg a d := by
  unfold State.select busSelect
  rw [if_neg (by omega), h]

theorem c64Select_basic_range {a : Addr} (h1 : 0xA000 ≤ a.toNat) (h2 : a.toNat ≤ 0xBFFF) (c : BitVec 3) :
    c64Select c a .read = (if c.getLsbD 0 && c.getLsbD 1 then .basic else .ram) ∧ c64Select c a .write = .ram := by
  have ha : ¬ a.toNat < 0xA000 ∧ a.toNat < 0xC000 := by omega
  simp [c64Select, ha]

theorem c64Select_upper_ram {a : Addr} (h1 : 0xC000 ≤ a.toNat) (h2 : a.toNat ≤ 0xCFFF) (c : BitVec 3) (d : Dir) :
    c64Select c a d = .ram := by
  have ha : ¬ a.toNat < 0xA000 ∧ ¬ a.toNat < 0xC000 ∧ a.toNat < 0xD000 := by omega
  simp [c64Select, ha]

theorem c64Select_io_range {a : Addr} (h1 : 0xD000 ≤ a.toNat) (h2 : a.toNat ≤ 0xDFFF) (c : BitVec 3) :
    c64Select c a .read = (if !c.getLsbD 0 && !c.getLsbD 1 then .ram else if c.getLsbD 2 then .io else .char) ∧
    c64Select c a .write = (if !c.getLsbD 0 && !c.getLsbD 1 then .ram else if c.getLsbD 2 then .io else .ram) := by
  have ha : ¬ a.toNat < 0xA000 ∧ ¬ a.toNat < 0xC000 ∧ ¬ a.toNat < 0xD000 ∧ a.toNat < 0xE000 := by omega
  simp [c64Select, ha]

theorem c64Select_kernal_range {a : Addr} (h1 : 0xE000 ≤ a.toNat) (c : BitVec 3) :
    c64Select c a .read = (if c.getLsbD 1 then .kernal else .ram) ∧ c64Select c a .write = .ram := by
  have ha : ¬ a.toNat < 0xA000 ∧ ¬ a.toNat < 0xC000 ∧ ¬ a.toNat < 0xD000 ∧ ¬ a.toNat < 0xE000 := by omega
  simp [c64Select, ha]

/-- Settles O20: one range of the table after the other, each by what the map selects there. -/
theorem c64MapSelects : Obligations.C64MapSelects := by
  intro s a hc
  simp only [← loram_eq, ← hiram_eq, ← charen_eq]
  refine ⟨fun h => ?port, fun h1 h2 => ?low, fun h1 h2 => ?basic, fun h1 h2 => ?upper, fun h1 h2 => ?io, fun h1 => ?kernal⟩
  case port => exact ⟨select_port_of_lt s .read (by omega), select_port_of_lt s .write (by omega)⟩
  case low => exact ⟨select_c64_low hc h1 (by omega) .read, select_c64_low hc h1 (by omega) .write⟩
  all_goals rw [select_eq_c64Select hc (by omega), select_eq_c64Select hc (by omega)]
  case basic => simpa using c64Select_basic_range h1 h2 s.bankCfg
  case upper => exact ⟨c64Select_upper_ram h1 h2 _ .read, c64Select_upper_ram h1 h2 _ .write⟩
  case io => simpa using c64Select_io_range h1 h2 s.bankCfg
  case kernal => exact c64Select_kernal_range h1 s.bankCfg

end Sys2Proof.Machine
end

section
/-! PROOFS. The 16-bit reads (20_memory.md R53 to R55) and the effective address of every mode (40_addressing_modes.md R114 to R124).
The statements' arithmetic over Nat is that of the model's words. -/

namespace Sys2Proof.Machine

/-! ### Words and addresses as numbers -/

@[simp] theorem spec_addr_toNat (a : Addr) : Spec.addr a.toNat = a := by
  rw [Spec.addr, BitVec.ofNat_toNat, BitVec.setWidth_eq]

theorem spec_word_eq (h l : Byte) : Spec.word h l = wordOf h l := by
  rw [Spec.word, ← wordOf_toNat, spec_addr_toNat]

theorem spec_addr_byte (b : Byte) : Spec.addr b.toNat = zext16 b := by
  rw [← zext16_toNat, spec_addr_toNat]

theorem spec_addr_add (w v : Addr) : Spec.addr (w.toNat + v.toNat) = w + v := by
  simp only [Spec.addr, BitVec.ofNat_add, BitVec.ofNat_toNat, BitVec.setWidth_eq]

theorem spec_byte_add (b c : Byte) : Spec.byte (b.toNat + c.toNat) = b + c := by
  simp only [Spec.byte, BitVec.ofNat_add, BitVec.ofNat_toNat, BitVec.setWidth_eq]

/-- A sum modulo 256 is an address in page 0 (R54, R115). -/
theorem spec_addr_add_mod (b c : Byte) : Spec.addr ((b.toNat + c.toNat) % 256) = zext16 (b + c) := by
  rw [← spec_addr_byte, BitVec.toNat_add]

/-! ### The three 16-bit reads -/

theorem read16_eq (s : State) (w : Addr) :
    s.read16 w = (Spec.word ((s.afterRead w).peek (Spec.addr (w.toNat + 1))) (s.peek w),
      (s.afterRead w).afterRead (Spec.addr (w.toNat + 1))) := by
  have ha : Spec.addr (w.toNat + 1) = w + 1#16 := spec_addr_add w 1#16
  rw [ha, spec_word_eq, State.read16]

theorem read16zp_eq (s : State) (b : Byte) :
    s.read16zp b =
      (Spec.word ((s.afterRead (Spec.addr b.toNat)).peek (Spec.addr ((b.toNat + 1) % 256))) (s.peek (Spec.addr b.toNat)),
        (s.afterRead (Spec.addr b.toNat)).afterRead (Spec.addr ((b.toNat + 1) % 256))) := by
  have ha : Spec.addr ((b.toNat + 1) % 256) = zext16 (b + 1#8) := spec_addr_add_mod b 1#8
  rw [ha, spec_addr_byte, spec_word_eq, State.read16zp]

theorem read16pw_eq (s : State) (w : Addr) :
    s.read16pw w =
      (Spec.word ((s.afterRead w).peek (Spec.addr (w.toNat / 256 * 256 + (w.toNat + 1) % 256))) (s.peek w),
        (s.afterRead w).afterRead (Spec.addr (w.toNat / 256 * 256 + (w.toNat + 1) % 256))) := by
  rw [← samePageNext_toNat, spec_addr_toNat, spec_word_eq, State.read16pw]

/-! ### Effective addresses and page crossing -/

/-- The sum of a 16-bit base and an index (R118, R119, R122). -/
theorem spec_addr_add_byte (w : Addr) (v : Byte) : Spec.addr (w.toNat + v.toNat) = w + zext16 v := by
  rw [← spec_addr_add, zext16_toNat]

theorem pageCross_eq (v w : Addr) : pageCross v w = decide (Spec.page v ≠ Spec.page w) := by
  rw [Bool.eq_iff_iff, pageCross, bne_iff_ne, decide_eq_true_iff]
  exact hiByte_ne_iff v w

/-- Only a mode that adds an index to a 16-bit base can cross a page (R124). -/
theorem cross_of_not_indexes16 (s : State) {m : MemForm} (h : indexes16 m = false) : (s.resolve m).cross = false := by
  have hbase : (s.resolve m).base = (s.resolve m).ea := by
    cases m with
    | zp | zpx | zpy | abs | indx => rfl
    | absx | absy | indy => cases h
  rw [Resolved.cross, hbase, pageCross, bne_self_eq_false]

/-- A mode without a pointer reads nothing to find its effective address (R114 to R119). -/
theorem resolve_st_of_no_pointer {s : State} {m : MemForm} (h : s.pointerOf m = none) : (s.resolve m).st = s := by
  cases m with
  | zp | zpx | zpy | abs | absx | absy => rfl
  | indx | indy => cases h

/-- Settles O27: the three reads, then mode by mode, the model's word sums read as sums of numbers. -/
theorem effectiveAddressOfEveryMode : Obligations.EffectiveAddressOfEveryMode := by
  intro s b w
  rw [spec_byte_add]
  refine ⟨read16_eq s w, read16zp_eq s b, read16pw_eq s w,
    (spec_addr_byte b).symm, (spec_addr_add_mod b s.x).symm, (spec_addr_add_mod b s.y).symm, rfl,
    (spec_addr_add_byte w s.x).symm, rfl, (spec_addr_add_byte w s.y).symm, rfl,
    rfl, rfl, (spec_addr_add_byte (s.read16zp b).1 s.y).symm, rfl, rfl, fun m => pageCross_eq _ _, ?_, ?_⟩
  · rintro m (rfl | rfl | rfl | rfl | rfl) <;> exact cross_of_not_indexes16 s rfl
  · rintro m (rfl | rfl | rfl | rfl | rfl | rfl) <;> exact resolve_st_of_no_pointer rfl

end Sys2Proof.Machine
end

section
/-! PROOFS. What no step reaches: the configuration (10_state.md R20) and the two RAM bytes under the port (20_memory.md R72). Every
operation that an instruction or a service is made of keeps them. -/

namespace Sys2Proof.Machine

/-- `t` has the configuration of `s` and its RAM bytes at 0x0000 and 0x0001. -/
structure KeepsUnreachable (s t : State) : Prop where
  cfg_eq : t.cfg = s.cfg
  ram_read : ∀ b, b < 2 → t.ram.read b = s.ram.read b

theorem KeepsUnreachable.of_eq {s t : State} (hc : t.cfg = s.cfg) (hr : t.ram = s.ram) : KeepsUnreachable s t :=
  ⟨hc, fun _ _ => by rw [hr]⟩

theorem KeepsUnreachable.trans {s t u : State} (h : KeepsUnreachable s t) (h' : KeepsUnreachable t u) : KeepsUnreachable s u :=
  ⟨h'.cfg_eq.trans h.cfg_eq, fun b hb => (h'.ram_read b hb).trans (h.ram_read b hb)⟩

/-- What comes after counts only by its configuration and RAM. -/
theorem KeepsUnreachable.congr {s t u : State} (h : KeepsUnreachable s t) (hc : u.cfg = t.cfg) (hr : u.ram = t.ram) :
    KeepsUnreachable s u := h.trans (.of_eq hc hr)

theorem ReadsOnly.keepsUnreachable {s t : State} (h : ReadsOnly s t) : KeepsUnreachable s t := .of_eq h.cfg_eq h.ram_eq

theorem keepsUnreachable_memWrite (s : State) (a : Addr) (v : Byte) : KeepsUnreachable s (s.memWrite a v) :=
  ⟨rfl, fun _ hb => ramAfterWrite_read_port s a v hb⟩

theorem keepsUnreachable_push (s : State) (v : Byte) : KeepsUnreachable s (s.push v) :=
  (keepsUnreachable_memWrite s _ v).congr rfl rfl

theorem keepsUnreachable_pushWord (s : State) (w : Addr) : KeepsUnreachable s (s.pushWord w) :=
  (keepsUnreachable_push s _).trans (keepsUnreachable_push _ _)

theorem keepsUnreachable_takeException (s : State) (ret : Addr) (b : Bool) (vector : Addr) :
    KeepsUnreachable s (s.takeException ret b vector) :=
  ((keepsUnreachable_pushWord s ret).trans (keepsUnreachable_push _ (s.p.pack b))).congr
    (by simp) (takeException_ram s ret b vector)

theorem keepsUnreachable_service (s : State) (k : Interrupt) : KeepsUnreachable s (s.service k) :=
  (keepsUnreachable_takeException s s.pc false k.vector).congr (by simp) (service_ram s k)

theorem keepsUnreachable_rmwWrite (s : State) (ea : Addr) (v v' : Byte) : KeepsUnreachable s (s.rmwWrite ea v v') := by
  unfold State.rmwWrite
  split
  · exact keepsUnreachable_memWrite s ea v'
  · exact (keepsUnreachable_memWrite s ea v).trans (keepsUnreachable_memWrite _ ea v')

theorem keepsUnreachable_readOp {m : Mnemonic} {k : Byte → State → Result} (h : readOp m = some k) {v : Byte} {s t : State}
    (hk : k v s = .next t) : KeepsUnreachable s t := by
  obtain ⟨_, _, _, _, rfl⟩ := readOp_next h hk
  exact .of_eq rfl rfl

/-- Of the implied instructions only PHA, PHP and BRK write to memory. -/
theorem keepsUnreachable_implied {i : Instr} (hi : i.form = .imp) {s t : State} (h : exec i s = .next t) :
    KeepsUnreachable s t := by
  cases i <;> cases hi <;> cases h
  case pha => exact (keepsUnreachable_push s s.a).congr rfl rfl
  case php => exact (keepsUnreachable_push s (s.p.pack true)).congr rfl rfl
  case brk => exact (keepsUnreachable_takeException s (s.pc + 2#16) true 0xFFFE#16).congr rfl rfl
  case rti => exact .of_eq (returnFromException_cfg s) (returnFromException_ram s)
  all_goals exact .of_eq rfl rfl

/-- No instruction reaches them, by access class (R126). -/
theorem keepsUnreachable_exec {i : Instr} {s t : State} (h : exec i s = .next t) : KeepsUnreachable s t := by
  rcases exec_class i with ⟨b, k, -, hk, -, he⟩ | ⟨m, k, -, hk, -, he⟩ | ⟨m, r, -, -, -, he⟩ | ⟨m, f, -, -, -, -, he⟩ |
    ⟨f, -, -, -, he⟩ | ⟨b, c, -, -, -, he⟩ | ⟨⟨w, rfl⟩ | ⟨w, rfl⟩ | ⟨w, rfl⟩⟩ | hf
  case imm =>
    rw [he] at h
    have hret : KeepsUnreachable s (s.retire 2 2) := .of_eq rfl rfl
    exact hret.trans (keepsUnreachable_readOp hk h)
  case read =>
    rw [he, readInstr_next] at h
    have hret := (readsOnly_afterOperand s m).keepsUnreachable.congr
      (retire_cfg _ m.mode.length (i.baseCycles + s.pageCost m)) rfl
    exact hret.trans (keepsUnreachable_readOp hk h.2)
  case write =>
    rw [he, writeInstr_next] at h
    obtain ⟨-, -, rfl⟩ := h
    exact ((readsOnly_writeDummy s m).keepsUnreachable.trans (keepsUnreachable_memWrite _ _ _)).congr rfl rfl
  case modify =>
    rw [he, rmwInstr_next] at h
    obtain ⟨-, -, rfl⟩ := h
    exact ((readsOnly_afterRmwRead s m).keepsUnreachable.trans (keepsUnreachable_rmwWrite _ _ _ _)).congr rfl rfl
  case acc => rw [he, accInstr_next] at h; subst h; exact .of_eq rfl rfl
  case branch => rw [he, branchInstr_next] at h; subst h; split <;> exact .of_eq rfl rfl
  case implied => exact keepsUnreachable_implied hf h
  · cases h; exact (keepsUnreachable_pushWord s _).congr rfl rfl
  · cases h; exact .of_eq rfl rfl
  · cases h; exact (readsOnly_read16pw s w).keepsUnreachable.congr rfl rfl

/-- No step reaches them: it is a service, or reads to fetch an instruction, the instruction, and bookkeeping (R260). -/
theorem keepsUnreachable_step {s t : State} (h : step s = .next t) : KeepsUnreachable s t := by
  obtain ⟨-, ⟨k, -, -, rfl⟩ | ⟨-, i, u, v, hf, -, he, rfl⟩⟩ := step_next.1 h
  · exact keepsUnreachable_service s k
  · exact ((fetch_readsOnly hf).keepsUnreachable.trans (keepsUnreachable_exec he)).congr rfl rfl

/-- Settles O23: the port is selected at its two addresses, and a step keeps what it cannot reach. -/
theorem noStepChangesTheConfigurationOrTheRamUnderThePort :
    Obligations.NoStepChangesTheConfigurationOrTheRamUnderThePort := by
  refine ⟨fun s d => ⟨select_port_of_lt s d (by decide), select_port_of_lt s d (by decide)⟩, fun s t h => ?_⟩
  obtain ⟨hcfg, hram⟩ := keepsUnreachable_step h
  exact ⟨hcfg, hram 0 (by decide), hram 1 (by decide)⟩

end Sys2Proof.Machine
end

section
/-! PROOFS. The opcodes of a mnemonic (30_encoding.md R98), read off the list of rows. -/

namespace Sys2Proof

/-- The modes and opcodes that the table lists for a mnemonic (R98). -/
def opcodesOf (m : Mnemonic) : List (AddrMode × Byte) := (tableRows.filter fun r => r.1 = m).map Prod.snd

theorem mem_opcodesOf {m : Mnemonic} {mode : AddrMode} {op : Byte} : (mode, op) ∈ opcodesOf m ↔ (m, mode, op) ∈ tableRows := by
  simp [opcodesOf]

/-- A list of encodings is complete and exact when it is the table's in another order. -/
theorem encodedAs_of_perm {m : Mnemonic} {l : List (AddrMode × Byte)} (h : l.Perm (opcodesOf m)) : Spec.EncodedAs m l :=
  fun _ _ => h.mem_iff.trans (mem_opcodesOf.trans mem_tableRows)

end Sys2Proof
end

section
/-! PROOFS. What the statements about single instructions share: the next state and its N and Z in the model's terms (30_encoding.md
R110, R111; 10_state.md R30), and `exec` on an instruction that reads an operand or stores a register (40_addressing_modes.md R113,
R126). -/

namespace Sys2Proof.Machine

/-! ### The next state -/

theorem fallThrough_eq_retire (i : Instr) (cost : Nat) (s : State) :
    Spec.fallThrough i cost s = s.retire i.form.mode.length cost := by
  have hpc : Spec.addr (s.pc.toNat + i.form.mode.length) = s.pc + BitVec.ofNat 16 i.form.mode.length := by
    rw [Spec.addr, BitVec.ofNat_add, ← Spec.addr, spec_addr_toNat]
  rw [Spec.fallThrough, hpc, State.retire]

theorem spec_nz_eq (p : Flags) (v : Byte) : Spec.nz p v = p.setNZ v := (setNZ_eq p v).symm

/-- An implied instruction falls through (R111). -/
theorem impInstr_eq_fallThrough {i : Instr} (h : i.form = .imp) (cost : Nat) (f : State → State) (s : State) :
    impInstr cost f s = .next (Spec.fallThrough i cost (f s)) := by
  rw [fallThrough_eq_retire, h]
  rfl

/-! ### The read class -/

/-- An operand in memory is the model's, and its pointer is not refused. -/
theorem operand_mem {s : State} {m : MemForm} {o : Spec.Operand} (h : Spec.operand s (.mem m) = some o) :
    s.pointerRefused m = none ∧ o = ⟨s.operandByte m, s.afterOperand m, s.pageCost m⟩ := by
  simp only [Spec.operand] at h
  split at h <;> cases h
  exact ⟨‹_›, rfl⟩

/-- Reading an operand changes nothing else (R126). -/
theorem operand_readsOnly {s : State} {f : Form} {o : Spec.Operand} (h : Spec.operand s f = some o) : ReadsOnly s o.st := by
  cases f with
  | imm b => cases h; exact .refl s
  | mem m => obtain ⟨-, rfl⟩ := operand_mem h; exact readsOnly_afterOperand s m
  | imp | acc | ind | rel => cases h

/-- A mnemonic of the read class is of neither of the classes that write memory (R126). -/
theorem storeOp_modifyOp_eq_none_of_readOp {m : Mnemonic} {k : Byte → State → Result} (h : readOp m = some k) :
    storeOp m = none ∧ modifyOp m = none := by
  cases m <;> simp_all [readOp, storeOp, modifyOp]

/-- A read-class instruction does its operation on its operand, PC past the instruction and the cycles counted (R113, R126). -/
theorem exec_of_operand {i : Instr} {k : Byte → State → Result} (hk : readOp i.mnemonic = some k) {s : State} {o : Spec.Operand}
    (ho : Spec.operand s i.form = some o) :
    exec i s = k o.value (o.st.retire i.form.mode.length (i.baseCycles + o.extra)) := by
  obtain ⟨hstore, hmodify⟩ := storeOp_modifyOp_eq_none_of_readOp hk
  rcases exec_class i with ⟨b, k', hf, hk', hc, he⟩ | ⟨m, k', hf, hk', -, he⟩ | ⟨_, _, -, hw, -, -⟩ | ⟨_, _, -, hm, -, -, -⟩ |
    ⟨_, hf, -, -, -⟩ | ⟨_, _, hf, -, -, -⟩ | ⟨⟨_, rfl⟩ | ⟨_, rfl⟩ | ⟨_, rfl⟩⟩ | hf
  case imm =>
    rw [hf] at ho
    cases ho
    cases hk.symm.trans hk'
    rw [he, hf, hc.1]
    rfl
  case read =>
    rw [hf] at ho
    obtain ⟨hp, rfl⟩ := operand_mem ho
    cases hk.symm.trans hk'
    rw [he, hf, readInstr_of_allowed hp]
    rfl
  case write => cases hstore.symm.trans hw
  case modify => cases hmodify.symm.trans hm
  case acc | branch | implied => rw [hf] at ho; cases ho
  all_goals cases hk

/-- A read-class instruction whose operation always answers and does not read PC or Cycles falls through after it (R110). -/
theorem exec_eq_fallThrough {i : Instr} (f : Byte → State → State) (hk : readOp i.mnemonic = some fun v t => .next (f v t))
    (hf : ∀ v (t : State) len cost, f v (t.retire len cost) = (f v t).retire len cost) {s : State} {o : Spec.Operand}
    (ho : Spec.operand s i.form = some o) :
    exec i s = .next (Spec.fallThrough i (i.baseCycles + o.extra) (f o.value o.st)) := by
  rw [exec_of_operand hk ho, hf, fallThrough_eq_retire]

/-! ### The write class -/

theorem storedRegister_eq (m : Mnemonic) (s : State) : Spec.storedRegister m s = (storeOp m).map (· s) := by
  cases m <;> rfl

/-- A mnemonic of the write class is of no other class on memory (R126). -/
theorem readOp_modifyOp_eq_none_of_storeOp {m : Mnemonic} {r : State → Byte} (h : storeOp m = some r) :
    readOp m = none ∧ modifyOp m = none := by
  cases m <;> simp_all [readOp, storeOp, modifyOp]

/-- A write-class instruction writes its register at its effective address (R126). -/
theorem exec_of_storedRegister {i : Instr} {m : MemForm} (hm : i.form = .mem m) {s : State} {v : Byte}
    (hv : Spec.storedRegister i.mnemonic s = some v) : exec i s = writeInstr i.opcode m i.baseCycles v s := by
  rw [storedRegister_eq, Option.map_eq_some_iff] at hv
  obtain ⟨r, hr, rfl⟩ := hv
  obtain ⟨hread, hmodify⟩ := readOp_modifyOp_eq_none_of_storeOp hr
  rcases exec_class i with ⟨_, _, hf, -, -, -⟩ | ⟨_, _, -, hk, -, -⟩ | ⟨m', r', hf, hw, -, he⟩ | ⟨_, _, -, hk, -, -, -⟩ |
    ⟨_, hf, -, -, -⟩ | ⟨_, _, hf, -, -, -⟩ | ⟨⟨_, rfl⟩ | ⟨_, rfl⟩ | ⟨_, rfl⟩⟩ | hf
  case write =>
    cases hm.symm.trans hf
    cases hr.symm.trans hw
    exact he s
  case read => cases hread.symm.trans hk
  case modify => cases hmodify.symm.trans hk
  case imm | acc | branch | implied => cases hm.symm.trans hf
  all_goals cases hr

end Sys2Proof.Machine
end

section
/-! PROOFS. Loads, stores, and the instructions on registers alone (41_load_store_transfer.md; 43_arithmetic.md R182 to R185). -/

namespace Sys2Proof.Machine

/-! ### Loads (R140 to R142) -/

/-- Settles O31: the encodings from the table, and each load as its operation on its operand. -/
theorem loadsCompleteAndSetNZ : Obligations.LoadsCompleteAndSetNZ := by
  refine ⟨encodedAs_of_perm (by decide), encodedAs_of_perm (by decide), encodedAs_of_perm (by decide), fun i s o ho => ?_⟩
  simp only [spec_nz_eq, ← (operand_readsOnly ho).p_eq]
  refine ⟨fun hi => ?lda, fun hi => ?ldx, fun hi => ?ldy⟩
  case lda => exact exec_eq_fallThrough State.loadA (congrArg readOp hi) (fun _ _ _ _ => rfl) ho
  case ldx => exact exec_eq_fallThrough State.loadX (congrArg readOp hi) (fun _ _ _ _ => rfl) ho
  case ldy => exact exec_eq_fallThrough State.loadY (congrArg readOp hi) (fun _ _ _ _ => rfl) ho

/-! ### Stores (R143 to R145) -/

/-- Settles O32: the encodings from the table, and a store as the write class's one write. -/
theorem storesCompleteWithOneWrite : Obligations.StoresCompleteWithOneWrite := by
  refine ⟨encodedAs_of_perm (by decide), encodedAs_of_perm (by decide), encodedAs_of_perm (by decide),
    fun i m s v hm hv hpointer hvalid => ?_⟩
  rw [exec_of_storedRegister hm hv, fallThrough_eq_retire, hm]
  exact writeInstr_next.2 ⟨hpointer, hvalid, rfl⟩

/-! ### Transfers, increments and decrements (R146 to R151, R182 to R185) -/

theorem spec_byte_succ (b : Byte) : Spec.byte (b.toNat + 1) = b + 1#8 := spec_byte_add b 1#8

theorem spec_byte_pred (b : Byte) : Spec.byte (b.toNat + 255) = b - 1#8 :=
  (spec_byte_add b 255#8).trans (BitVec.sub_eq_add_neg b 1#8).symm

/-- Settles O33: the encodings from the table, and each instruction as an implied one that does its own update. -/
theorem registerInstructionsComplete : Obligations.RegisterInstructionsComplete := by
  refine ⟨encodedAs_of_perm (.refl _), encodedAs_of_perm (.refl _), encodedAs_of_perm (.refl _), encodedAs_of_perm (.refl _),
    encodedAs_of_perm (.refl _), encodedAs_of_perm (.refl _), encodedAs_of_perm (.refl _), encodedAs_of_perm (.refl _),
    encodedAs_of_perm (.refl _), encodedAs_of_perm (.refl _), fun s => ?_⟩
  simp only [spec_nz_eq, spec_byte_succ, spec_byte_pred]
  refine ⟨?tax, ?tay, ?txa, ?tya, ?tsx, ?txs, ?inx, ?iny, ?dex, ?dey⟩
  case tax => exact impInstr_eq_fallThrough rfl 2 (fun t => t.loadX t.a) s
  case tay => exact impInstr_eq_fallThrough rfl 2 (fun t => t.loadY t.a) s
  case txa => exact impInstr_eq_fallThrough rfl 2 (fun t => t.loadA t.x) s
  case tya => exact impInstr_eq_fallThrough rfl 2 (fun t => t.loadA t.y) s
  case tsx => exact impInstr_eq_fallThrough rfl 2 (fun t => t.loadX t.sp) s
  case txs => exact impInstr_eq_fallThrough rfl 2 (fun t => { t with sp := t.x }) s
  case inx => exact impInstr_eq_fallThrough rfl 2 (fun t => t.loadX (t.x + 1#8)) s
  case iny => exact impInstr_eq_fallThrough rfl 2 (fun t => t.loadY (t.y + 1#8)) s
  case dex => exact impInstr_eq_fallThrough rfl 2 (fun t => t.loadX (t.x - 1#8)) s
  case dey => exact impInstr_eq_fallThrough rfl 2 (fun t => t.loadY (t.y - 1#8)) s

end Sys2Proof.Machine
end

section
/-! PROOFS. The stack: the rules' push, pull and unpacked flags are the model's (20_memory.md R56, R57; 10_state.md R29), and the four
stack instructions (42_stack.md R160 to R163). -/

namespace Sys2Proof.Machine

/-! ### Push and pull -/

theorem spec_addr_stack (v : Byte) : Spec.addr (256 + v.toNat) = stackAddr v := by
  rw [← spec_addr_toNat (stackAddr v), stackAddr_toNat]

theorem spec_push_eq (v : Byte) (s : State) : Spec.push v s = s.push v := by
  rw [Spec.push, spec_addr_stack, spec_byte_pred, State.push]

theorem spec_pullAddr_eq (s : State) : Spec.pullAddr s = stackAddr (s.sp + 1#8) := by
  have hsp : (s.sp + 1#8).toNat = (s.sp.toNat + 1) % 256 := BitVec.toNat_add s.sp 1#8
  rw [Spec.pullAddr, ← hsp, spec_addr_stack]

theorem spec_pull_eq (s : State) : Spec.pull s = (s.pullByte, s.afterPull) := by
  rw [Spec.pull, spec_pullAddr_eq, spec_byte_succ, State.pullByte, State.afterPull]

theorem spec_unpack_eq (v : Byte) : Spec.unpack v = unpackFlags v := rfl

/-! ### PHA, PHP, PLA, PLP (R160 to R163) -/

/-- Settles O34: the encodings from the table, and each instruction as an implied one that does its own push or pull. -/
theorem stackInstructionsComplete : Obligations.StackInstructionsComplete := by
  refine ⟨encodedAs_of_perm (.refl _), encodedAs_of_perm (.refl _), encodedAs_of_perm (.refl _), encodedAs_of_perm (.refl _),
    fun s => ?_⟩
  simp only [spec_push_eq, ← pack_eq_spec, spec_pull_eq, spec_nz_eq, spec_unpack_eq]
  refine ⟨?pha, ?php, ?pla, ?plp⟩
  case pha => exact impInstr_eq_fallThrough rfl 3 (fun t => t.push t.a) s
  case php => exact impInstr_eq_fallThrough rfl 3 (fun t => t.push (t.p.pack true)) s
  case pla => exact impInstr_eq_fallThrough rfl 4 (fun t => t.afterPull.loadA t.pullByte) s
  case plp => exact impInstr_eq_fallThrough rfl 4 (fun t => t.afterPull.setP (unpackFlags t.pullByte)) s

end Sys2Proof.Machine
end

section
/-! PROOFS. The results of arithmetic, compares and shifts are those the rules write over numbers (43_arithmetic.md R171 to R181;
44_logic_shift.md R204 to R207). -/

namespace Sys2Proof.Machine

/-! ### Binary addition and subtraction (R171, R174) -/

/-- The V expression of addition is signed overflow (R32). -/
theorem addOverflow_eq_signed (a m : Byte) (c : Bool) :
    addOverflow a m (BitVec.ofNat 8 (a.toNat + m.toNat + bitNat c)) =
      decide (a.toInt + m.toInt + bitNat c < -128 ∨ 127 < a.toInt + m.toInt + bitNat c) := by
  have ha := a.isLt
  have hm := m.isLt
  have hc := bitNat_le_one c
  rw [addOverflow_eq, decide_eq_decide, BitVec.toNat_ofNat, toInt_eq, toInt_eq]
  split <;> split <;> omega

theorem binaryAdd_eq_spec (a m : Byte) (p : Flags) : binaryAdd a m p = Spec.binaryAdd a m p := by
  simp only [binaryAdd, addOverflow_eq_signed, ← spec_nz_eq]
  rfl

/-- The V expression of subtraction is signed overflow (R32). -/
theorem subOverflow_eq_signed (a m : Byte) (c : Bool) :
    subOverflow a m (BitVec.ofNat 8 (a.toNat + (255 - m.toNat) + bitNat c)) =
      decide (a.toInt - m.toInt - (1 - bitNat c) < -128 ∨ 127 < a.toInt - m.toInt - (1 - bitNat c)) := by
  have ha := a.isLt
  have hm := m.isLt
  have hc := bitNat_le_one c
  rw [subOverflow_eq, decide_eq_decide, BitVec.toNat_ofNat, toInt_eq, toInt_eq]
  split <;> split <;> omega

/-- The carry of the complemented sum is "no borrow" (R174). -/
theorem carry_iff_no_borrow (a m : Byte) (c : Bool) :
    0x100 ≤ a.toNat + (255 - m.toNat) + bitNat c ↔ m.toNat + (1 - bitNat c) ≤ a.toNat := by
  have hm := m.isLt
  have hc := bitNat_le_one c
  omega

theorem binarySub_eq_spec (a m : Byte) (p : Flags) : binarySub a m p = Spec.binarySub a m p := by
  simp only [binarySub, complement_toNat, subOverflow_eq_signed, carry_iff_no_borrow, ← spec_nz_eq]
  rfl

/-! ### Decimal addition and subtraction (R172, R175) -/

theorem and_low_nibble (n : Nat) : n &&& 0x0F = n % 16 := Nat.and_two_pow_sub_one_eq_mod n 4

theorem and_high_nibble (v : Byte) : v.toNat &&& 0xF0 = v.toNat / 16 * 16 := by
  revert v; decide +kernel

/-- The V rule of decimal addition reads bit 7 of the sum, which the truncation to a byte keeps (R172). -/
theorem addOverflow_ofNat (a m : Byte) (t : Nat) :
    addOverflow a m (BitVec.ofNat 8 t) =
      (!(a.toNat.testBit 7 ^^ m.toNat.testBit 7) && (a.toNat.testBit 7 ^^ t.testBit 7)) := by
  rw [addOverflow, sign_mask]
  simp only [BitVec.getLsbD_and, BitVec.getLsbD_not, BitVec.getLsbD_xor, BitVec.getLsbD_ofNat, Nat.reduceLT, decide_true,
    Bool.true_and]
  rfl

theorem decimalAdd_eq_spec (a m : Byte) (p : Flags) : decimalAdd a m p = Spec.decimalAdd a m p := by
  simp only [decimalAdd, decimalAddSum, decimalAddLow, addOverflow_ofNat, eq_zero_iff, BitVec.toNat_ofNat, ← and_low_nibble,
    ← and_high_nibble]
  rfl

theorem ofInt_eq_spec_byte (t : Int) : BitVec.ofInt 8 t = Spec.byte (t % 0x100).toNat := by
  apply BitVec.eq_of_toNat_eq
  rw [Spec.byte, BitVec.toNat_ofInt, BitVec.toNat_ofNat]
  omega

theorem decimalSub_eq_spec (a m : Byte) (p : Flags) : decimalSub a m p = Spec.decimalSub a m p := by
  simp only [decimalSub, decimalSubValue, decimalSubLow, binarySub_eq_spec, ofInt_eq_spec_byte, ← and_low_nibble,
    ← and_high_nibble]
  rfl

theorem validBcd_iff (v : Byte) : validBcd v = true ↔ Spec.isBcd v := by
  simp [validBcd, Spec.isBcd]

/-! ### Compare, increment, decrement, shifts and rotates -/

theorem spec_byte_diff (r m : Byte) : Spec.byte (r.toNat + 256 - m.toNat) = r - m := by
  rw [BitVec.sub_def, Spec.byte]
  congr 1
  have hm := m.isLt
  omega

theorem compareFlags_eq_spec (r m : Byte) (p : Flags) : compareFlags r m p = Spec.compare r m p := by
  rw [Spec.compare, spec_byte_diff, spec_nz_eq, compareFlags]

/-- Doubling leaves bit 0 clear for the carry (R206). -/
theorem spec_byte_double_carry (v : Byte) (c : Bool) :
    Spec.byte (2 * v.toNat + bitNat c) = v <<< 1 ||| BitVec.ofNat 8 (bitNat c) := by
  have hc := bitNat_le_one c
  have hor := Nat.two_pow_add_eq_or_of_lt (i := 1) (b := bitNat c) (by omega) (v.toNat % 128)
  apply BitVec.eq_of_toNat_eq
  have hshift : (v <<< 1).toNat = 2 ^ 1 * (v.toNat % 128) := by
    rw [BitVec.toNat_shiftLeft, Nat.shiftLeft_eq]
    omega
  have hcarry : (BitVec.ofNat 8 (bitNat c)).toNat = bitNat c := by
    rw [BitVec.toNat_ofNat]
    omega
  rw [BitVec.toNat_or, hshift, hcarry, ← hor, Spec.byte, BitVec.toNat_ofNat]
  omega

/-- Halving leaves bit 7 clear for the carry (R207). -/
theorem spec_byte_half_carry (v : Byte) (c : Bool) :
    Spec.byte (v.toNat / 2 + 128 * bitNat c) = v >>> 1 ||| BitVec.ofNat 8 (bitNat c * 128) := by
  have hv := v.isLt
  have hc := bitNat_le_one c
  have hor := Nat.two_pow_add_eq_or_of_lt (i := 7) (b := v.toNat / 2) (by omega) (bitNat c)
  apply BitVec.eq_of_toNat_eq
  have hcarry : (BitVec.ofNat 8 (bitNat c * 128)).toNat = 2 ^ 7 * bitNat c := by
    rw [BitVec.toNat_ofNat]
    omega
  rw [BitVec.or_comm, BitVec.toNat_or, hcarry, BitVec.toNat_ushiftRight, Nat.shiftRight_eq_div_pow, Nat.pow_one, ← hor,
    Spec.byte, BitVec.toNat_ofNat]
  omega

theorem spec_byte_double (v : Byte) : Spec.byte (2 * v.toNat) = v <<< 1 := by
  simpa using spec_byte_double_carry v false

theorem spec_byte_half (v : Byte) : Spec.byte (v.toNat / 2) = v >>> 1 := by
  simpa using spec_byte_half_carry v false

theorem spec_modify_eq (mn : Mnemonic) (v : Byte) (p : Flags) : Spec.modify mn v p = (modifyOp mn).map (· v p) := by
  cases mn
  case ASL => simp only [Spec.modify, modifyOp, Option.map_some, aslResult, spec_byte_double, spec_nz_eq, getLsbD_seven]
  case LSR => simp only [Spec.modify, modifyOp, Option.map_some, lsrResult, spec_byte_half, spec_nz_eq, getLsbD_zero]
  case ROL =>
    simp only [Spec.modify, modifyOp, Option.map_some, rolResult, num_eq_bitNat, spec_byte_double_carry, spec_nz_eq, getLsbD_seven]
  case ROR =>
    simp only [Spec.modify, modifyOp, Option.map_some, rorResult, num_eq_bitNat, spec_byte_half_carry, spec_nz_eq, getLsbD_zero]
  case INC => simp only [Spec.modify, modifyOp, Option.map_some, incResult, spec_byte_succ, spec_nz_eq]
  case DEC => simp only [Spec.modify, modifyOp, Option.map_some, decResult, spec_byte_pred, spec_nz_eq]
  all_goals rfl

end Sys2Proof.Machine
end

section
/-! PROOFS. ADC, SBC and the compares as operations of the read class, and `exec` on an instruction that modifies a byte. -/

namespace Sys2Proof.Machine

/-! ### ADC and SBC -/

/-- The shape that ADC and SBC share: refuse a byte that is not BCD, or take A and P from the result `f` (R170, R173, R176). -/
def addSubOp (f : Byte → Byte → Flags → Byte × Flags) (m : Byte) (s : State) : Result :=
  if s.bcdRefused m then .refused (.invalidBcd s.a m) else .next (s.setAP (f s.a m s.p))

theorem readOp_of_adc {mn : Mnemonic} (h : mn = .ADC) : readOp mn = some (addSubOp adcResult) := h ▸ rfl

theorem readOp_of_sbc {mn : Mnemonic} (h : mn = .SBC) : readOp mn = some (addSubOp sbcResult) := h ▸ rfl

/-- `VALID_ONLY` refuses a decimal operation exactly when one of its operands is not BCD (R176). -/
theorem bcdRefused_iff (s : State) (m : Byte) :
    s.bcdRefused m = true ↔ s.cfg.decimal = .validOnly ∧ s.p.d = true ∧ ¬ (Spec.isBcd s.a ∧ Spec.isBcd m) := by
  unfold State.bcdRefused
  rw [← validBcd_iff, ← validBcd_iff]
  split
  · next h => simp [h]
  · next h =>
    rw [h, eq_self_iff_true, true_and, Bool.and_eq_true, Bool.not_eq_true', ← Bool.not_eq_true, Bool.and_eq_true]

/-- Reading its operand does not change whether an operation is refused. -/
theorem ReadsOnly.bcdRefused_eq {s t : State} (h : ReadsOnly s t) (m : Byte) : t.bcdRefused m = s.bcdRefused m := by
  obtain ⟨_, _, rfl⟩ := h
  rfl

section
variable {i : Instr} {f : Byte → Byte → Flags → Byte × Flags} {s : State} {o : Spec.Operand}

/-- ADC and SBC complete unless `VALID_ONLY` refuses the operand. -/
theorem exec_of_addSubOp (hk : readOp i.mnemonic = some (addSubOp f)) (ho : Spec.operand s i.form = some o)
    (hb : ¬ s.bcdRefused o.value = true) {r : Byte × Flags} (hr : f s.a o.value s.p = r) :
    exec i s = .next (Spec.fallThrough i (i.baseCycles + o.extra) { o.st with a := r.1, p := r.2 }) := by
  have hread := operand_readsOnly ho
  rw [← hread.bcdRefused_eq] at hb
  rw [← hread.a_eq, ← hread.p_eq] at hr
  rw [exec_of_operand hk ho, fallThrough_eq_retire, ← hr]
  exact if_neg hb

theorem exec_of_addSubOp_refused (hk : readOp i.mnemonic = some (addSubOp f)) (ho : Spec.operand s i.form = some o)
    (hb : s.bcdRefused o.value = true) : exec i s = .refused (.invalidBcd s.a o.value) := by
  have hread := operand_readsOnly ho
  rw [← hread.bcdRefused_eq] at hb
  rw [exec_of_operand hk ho, ← hread.a_eq]
  exact if_pos hb

end

/-! ### The result by D (R170, R173) -/

theorem adcResult_binary {p : Flags} (h : p.d = false) (a m : Byte) : adcResult a m p = Spec.binaryAdd a m p := by
  rw [adcResult, h, ← binaryAdd_eq_spec]
  rfl

theorem sbcResult_binary {p : Flags} (h : p.d = false) (a m : Byte) : sbcResult a m p = Spec.binarySub a m p := by
  rw [sbcResult, h, ← binarySub_eq_spec]
  rfl

theorem adcResult_decimal {p : Flags} (h : p.d = true) (a m : Byte) : adcResult a m p = Spec.decimalAdd a m p := by
  rw [adcResult, if_pos h, decimalAdd_eq_spec]

theorem sbcResult_decimal {p : Flags} (h : p.d = true) (a m : Byte) : sbcResult a m p = Spec.decimalSub a m p := by
  rw [sbcResult, if_pos h, decimalSub_eq_spec]

/-- Settles O36: the encodings from the table, and each instruction as its operation, which nothing refuses while D = 0. -/
theorem binaryAddAndSubtractComplete : Obligations.BinaryAddAndSubtractComplete := by
  refine ⟨encodedAs_of_perm (by decide), encodedAs_of_perm (by decide), fun i s o ho hd => ?_⟩
  have hb : ¬ s.bcdRefused o.value = true := by simp [bcdRefused_iff, hd]
  exact ⟨fun hi => exec_of_addSubOp (readOp_of_adc hi) ho hb (adcResult_binary hd _ _),
    fun hi => exec_of_addSubOp (readOp_of_sbc hi) ho hb (sbcResult_binary hd _ _)⟩

/-- Settles O37: with D = 1 the operation is refused exactly under `VALID_ONLY` on a byte that is not BCD. -/
theorem decimalAddAndSubtractComplete : Obligations.DecimalAddAndSubtractComplete := by
  refine fun i s o ho hd => ⟨fun hvalid => ?completes, fun hcfg hinvalid hi => ?refused⟩
  case completes =>
    have hb : ¬ s.bcdRefused o.value = true := by
      rw [bcdRefused_iff]
      rintro ⟨hcfg, -, hinvalid⟩
      rcases hvalid with hexact | hbcd
      · cases hcfg.symm.trans hexact
      · exact hinvalid hbcd
    exact ⟨fun hi => exec_of_addSubOp (readOp_of_adc hi) ho hb (adcResult_decimal hd _ _),
      fun hi => exec_of_addSubOp (readOp_of_sbc hi) ho hb (sbcResult_decimal hd _ _)⟩
  case refused =>
    have hb : s.bcdRefused o.value = true := (bcdRefused_iff s o.value).2 ⟨hcfg, hd, hinvalid⟩
    rcases hi with hi | hi
    · exact exec_of_addSubOp_refused (readOp_of_adc hi) ho hb
    · exact exec_of_addSubOp_refused (readOp_of_sbc hi) ho hb

/-! ### Compares (R177 to R179) -/

/-- Settles O39: the encodings from the table, and each compare as its operation on its operand. -/
theorem comparesComplete : Obligations.ComparesComplete := by
  refine ⟨encodedAs_of_perm (by decide), encodedAs_of_perm (by decide), encodedAs_of_perm (by decide), fun i s o ho => ?_⟩
  have hread := operand_readsOnly ho
  simp only [← compareFlags_eq_spec, ← hread.p_eq, ← hread.a_eq, ← hread.x_eq, ← hread.y_eq]
  refine ⟨fun hi => ?cmp, fun hi => ?cpx, fun hi => ?cpy⟩
  case cmp => exact exec_eq_fallThrough (fun v t => t.setP (compareFlags t.a v t.p)) (congrArg readOp hi) (fun _ _ _ _ => rfl) ho
  case cpx => exact exec_eq_fallThrough (fun v t => t.setP (compareFlags t.x v t.p)) (congrArg readOp hi) (fun _ _ _ _ => rfl) ho
  case cpy => exact exec_eq_fallThrough (fun v t => t.setP (compareFlags t.y v t.p)) (congrArg readOp hi) (fun _ _ _ _ => rfl) ho

/-! ### Increments, decrements, shifts and rotates (R180, R181, R204 to R207) -/

theorem readOp_storeOp_eq_none_of_modifyOp {m : Mnemonic} {f : Byte → Flags → Byte × Flags} (h : modifyOp m = some f) :
    readOp m = none ∧ storeOp m = none := by
  cases m <;> simp_all [readOp, storeOp, modifyOp]

/-- A read-modify-write instruction on memory, in a mode without a pointer (R126). -/
theorem exec_of_modifyOp_mem {i : Instr} {m : MemForm} (hm : i.form = .mem m) {f : Byte → Flags → Byte × Flags}
    (hf : modifyOp i.mnemonic = some f) (s : State) :
    s.pointerRefused m = none ∧ exec i s = rmwInstr i.opcode m i.baseCycles f s := by
  obtain ⟨hread, hstore⟩ := readOp_storeOp_eq_none_of_modifyOp hf
  rcases exec_class i with ⟨_, _, hform, -, -, -⟩ | ⟨_, _, -, hk, -, -⟩ | ⟨_, _, -, hk, -, -⟩ | ⟨m', f', hform, hk, -, hn, he⟩ |
    ⟨_, hform, -, -, -⟩ | ⟨_, _, hform, -, -, -⟩ | ⟨⟨_, rfl⟩ | ⟨_, rfl⟩ | ⟨_, rfl⟩⟩ | hform
  case modify =>
    cases hm.symm.trans hform
    cases hf.symm.trans hk
    exact ⟨pointerRefused_of_no_pointer s (hn s), he s⟩
  case read => cases hread.symm.trans hk
  case write => cases hstore.symm.trans hk
  case imm | acc | branch | implied => cases hm.symm.trans hform
  all_goals cases hf

/-- A shift or rotate of the accumulator (R112). -/
theorem exec_of_modifyOp_acc {i : Instr} (hi : i.form = .acc) {f : Byte → Flags → Byte × Flags}
    (hf : modifyOp i.mnemonic = some f) (s : State) : exec i s = accInstr f s := by
  rcases exec_class i with ⟨_, _, hform, -, -, -⟩ | ⟨_, _, hform, -, -, -⟩ | ⟨_, _, hform, -, -, -⟩ | ⟨_, _, hform, -, -, -, -⟩ |
    ⟨f', -, hk, -, he⟩ | ⟨_, _, hform, -, -, -⟩ | ⟨⟨_, rfl⟩ | ⟨_, rfl⟩ | ⟨_, rfl⟩⟩ | hform
  case acc =>
    cases hf.symm.trans hk
    exact he s
  case imm | read | write | modify | branch | implied => cases hi.symm.trans hform
  all_goals cases hf

/-- What the rules say a mnemonic does to a byte is what the model's function does. -/
theorem modifyOp_of_spec_modify {mn : Mnemonic} {v : Byte} {p : Flags} {r : Byte × Flags} (h : Spec.modify mn v p = some r) :
    ∃ f, modifyOp mn = some f ∧ f v p = r := by
  rwa [spec_modify_eq, Option.map_eq_some_iff] at h

/-- Settles O41: the encodings from the table, then the two forms by their shared meanings. -/
theorem readModifyWriteCompletes : Obligations.ReadModifyWriteCompletes := by
  refine ⟨encodedAs_of_perm (by decide), encodedAs_of_perm (by decide), encodedAs_of_perm (by decide),
    encodedAs_of_perm (by decide), encodedAs_of_perm (by decide), encodedAs_of_perm (by decide),
    fun i m s r hm hr hvalid => ?memory, fun i s r hi hr => ?accumulator⟩
  case memory =>
    obtain ⟨f, hf, rfl⟩ := modifyOp_of_spec_modify hr
    obtain ⟨hpointer, he⟩ := exec_of_modifyOp_mem hm hf s
    rw [he, fallThrough_eq_retire, hm]
    exact rmwInstr_next.2 ⟨hpointer, hvalid, rfl⟩
  case accumulator =>
    obtain ⟨f, hf, rfl⟩ := modifyOp_of_spec_modify hr
    rw [exec_of_modifyOp_acc hi hf, fallThrough_eq_retire, hi]
    exact accInstr_next.2 rfl

end Sys2Proof.Machine
end

section
/-! PROOFS. AND, ORA, EOR and BIT (44_logic_shift.md R200 to R203): operations of the read class that nothing refuses. -/

namespace Sys2Proof.Machine

/-- A read-class instruction that combines A with its operand leaves the result in A, and N and Z from it (R200 to R202). -/
theorem exec_of_accumulatorOp {i : Instr} (f : Byte → Byte → Byte)
    (hk : readOp i.mnemonic = some fun v t => .next (t.loadA (f t.a v))) {s : State} {o : Spec.Operand}
    (ho : Spec.operand s i.form = some o) :
    exec i s = .next (Spec.fallThrough i (i.baseCycles + o.extra)
      { o.st with a := f s.a o.value, p := Spec.nz s.p (f s.a o.value) }) := by
  have hread := operand_readsOnly ho
  rw [spec_nz_eq, ← hread.a_eq, ← hread.p_eq]
  exact exec_eq_fallThrough (fun v t => t.loadA (f t.a v)) hk (fun _ _ _ _ => rfl) ho

/-- BIT takes N and V from bits 7 and 6 of the operand as a number, and Z from the and (R203). -/
theorem bitFlags_eq (a m : Byte) (p : Flags) :
    bitFlags a m p = { p with
      n := decide (128 ≤ m.toNat), v := decide (64 ≤ m.toNat % 128), z := decide ((a &&& m).toNat = 0) } := by
  simp only [bitFlags, getLsbD_seven, getLsbD_six, eq_zero_iff]

/-- Settles O40: the encodings from the table, then the three operations on A by one lemma, and BIT by its flags. -/
theorem logicAndBitComplete : Obligations.LogicAndBitComplete := by
  refine ⟨encodedAs_of_perm (by decide), encodedAs_of_perm (by decide), encodedAs_of_perm (by decide),
    encodedAs_of_perm (by decide), fun i s o ho => ⟨fun hi => ?and, fun hi => ?ora, fun hi => ?eor, fun hi => ?bit⟩⟩
  case and => exact exec_of_accumulatorOp (· &&& ·) (congrArg readOp hi) ho
  case ora => exact exec_of_accumulatorOp (· ||| ·) (congrArg readOp hi) ho
  case eor => exact exec_of_accumulatorOp (· ^^^ ·) (congrArg readOp hi) ho
  case bit =>
    have hread := operand_readsOnly ho
    rw [← bitFlags_eq, ← hread.a_eq, ← hread.p_eq]
    exact exec_eq_fallThrough (fun v t => t.setP (bitFlags t.a v t.p)) (congrArg readOp hi) (fun _ _ _ _ => rfl) ho

end Sys2Proof.Machine
end

section
/-! PROOFS. Control transfer (45_control_transfer.md R220 to R233): the rules' 16-bit arithmetic, pushes and exception entry are the
model's, and branches, jumps, subroutines, RTI and BRK leave what their rules say. -/

namespace Sys2Proof.Machine

/-! ### Addresses, and words split into bytes -/

theorem spec_addr_succ (a : Addr) : Spec.addr (a.toNat + 1) = a + 1#16 := spec_addr_add a 1#16

theorem spec_addr_add_two (a : Addr) : Spec.addr (a.toNat + 2) = a + 2#16 := spec_addr_add a 2#16

theorem spec_byte_eq_loByte (w : Addr) : Spec.byte w.toNat = loByte w := by
  rw [Spec.byte, BitVec.ofNat_toNat, loByte]

theorem spec_byte_eq_hiByte (w : Addr) : Spec.byte (w.toNat / 256) = hiByte w := by
  rw [← hiByte_toNat, Spec.byte, BitVec.ofNat_toNat, BitVec.setWidth_eq]

/-! ### Branches (R220 to R228) -/

/-- The rule's sum over the integers wraps modulo 2^16 as the model's word sum does (R123). -/
theorem spec_target_eq (s : State) (rel : Byte) : Spec.target s rel = s.branchTarget rel := by
  rw [Spec.target, BitVec.ofInt_add, ← sext16_eq_ofInt, BitVec.ofInt_add, BitVec.ofInt_natCast, BitVec.ofNat_toNat,
    BitVec.setWidth_eq]
  rfl

theorem branchTaken_of_spec_taken {m : Mnemonic} {p : Flags} {b : Bool} (h : Spec.taken m p = some b) : branchTaken m p = b := by
  cases m <;> cases h <;> rfl

/-- The cost of a taken branch by the pages of its two addresses (R220). -/
theorem takenCost_eq (v w : Addr) : 3 + bitNat (pageCross v w) = if Spec.page v ≠ Spec.page w then 4 else 3 := by
  rw [pageCross_eq]
  by_cases h : Spec.page v = Spec.page w <;> simp [h]

/-- Settles O42: the encodings from the table, and each branch by the common branch rule, taken and not. -/
theorem branchesComplete : Obligations.BranchesComplete := by
  refine ⟨encodedAs_of_perm (.refl _), encodedAs_of_perm (.refl _), encodedAs_of_perm (.refl _), encodedAs_of_perm (.refl _),
    encodedAs_of_perm (.refl _), encodedAs_of_perm (.refl _), encodedAs_of_perm (.refl _), encodedAs_of_perm (.refl _),
    fun i s rel taken hi htaken => ?_⟩
  rw [exec_branch hi, branchTaken_of_spec_taken htaken, branchInstr_next, takenCost_eq]
  simp only [spec_addr_add_two, spec_target_eq]
  rfl

/-! ### Jumps (R229) -/

/-- Settles O43: the encodings from the table, and the indirect target by the read that stays in the pointer's page (R55). -/
theorem jumpsComplete : Obligations.JumpsComplete := by
  refine ⟨encodedAs_of_perm (.refl _), fun s w => ⟨rfl, ?_⟩⟩
  have hexec : exec (.jmpInd w) s = .next ((s.read16pw w).2.jumpTo (s.read16pw w).1 5) := rfl
  rw [hexec, read16pw_eq]
  rfl

/-! ### Subroutines (R230, R231) -/

/-- The rule's push of the high byte and then the low is the model's 16-bit push (R58). -/
theorem spec_pushWord_eq (w : Addr) (s : State) :
    Spec.push (Spec.byte w.toNat) (Spec.push (Spec.byte (w.toNat / 256)) s) = s.pushWord w := by
  rw [spec_push_eq, spec_push_eq, spec_byte_eq_loByte, spec_byte_eq_hiByte, State.pushWord]

/-- Settles O44: the encodings from the table, and the rules' two pushes and two pulls as the model's. -/
theorem subroutineCallAndReturnComplete : Obligations.SubroutineCallAndReturnComplete := by
  refine ⟨encodedAs_of_perm (.refl _), encodedAs_of_perm (.refl _), fun s w => ⟨?jsr, ?rts⟩⟩
  case jsr =>
    simp only [spec_pushWord_eq, spec_addr_add_two]
    rfl
  case rts =>
    simp only [spec_pull_eq, spec_word_eq, spec_addr_succ]
    rfl

/-! ### RTI and BRK (R232, R233) -/

/-- Settles O45: the encoding from the table, and the rule's pulls and unpacked flags as the model's. -/
theorem returnFromInterruptCompletes : Obligations.ReturnFromInterruptCompletes := by
  refine ⟨encodedAs_of_perm (.refl _), fun s => ?_⟩
  simp only [spec_pull_eq, spec_unpack_eq, spec_word_eq]
  rfl

/-- The entry that the rules give NMI, IRQ and BRK is the model's (R233, R266). -/
theorem spec_entry_eq (ret : Addr) (b : Bool) (vector : Nat) (s : State) :
    Spec.entry ret b vector s = s.takeException ret b (Spec.addr vector) := by
  have hvector : Spec.addr (vector + 1) = Spec.addr vector + 1#16 := BitVec.ofNat_add vector 1
  rw [Spec.entry, spec_pushWord_eq, spec_push_eq, ← pack_eq_spec, hvector]
  simp only [spec_word_eq]
  rfl

/-- Settles O46: the encoding from the table, and the trap as the shared exception entry. -/
theorem breakTakesTheTrap : Obligations.BreakTakesTheTrap := by
  refine ⟨encodedAs_of_perm (.refl _), fun s => ?_⟩
  rw [spec_entry_eq, spec_addr_add_two]
  rfl

end Sys2Proof.Machine
end

section
/-! PROOFS. The flag instructions and NOP (46_flags_nop.md R240 to R247): implied instructions that write one flag, or nothing. -/

namespace Sys2Proof.Machine

/-- An implied instruction whose update is of P alone leaves the rest as falling through does (R240 to R246). -/
theorem impInstr_setP_eq_fallThrough {i : Instr} (h : i.form = .imp) (cost : Nat) (g : Flags → Flags) (s : State) :
    impInstr cost (fun t => t.setP (g t.p)) s = .next (Spec.fallThrough i cost { s with p := g s.p }) :=
  impInstr_eq_fallThrough h cost (fun t => t.setP (g t.p)) s

/-- Settles O47: the encodings from the table, and each flag instruction as an update of P alone, NOP as no update. -/
theorem flagInstructionsAndNopComplete : Obligations.FlagInstructionsAndNopComplete := by
  refine ⟨encodedAs_of_perm (.refl _), encodedAs_of_perm (.refl _), encodedAs_of_perm (.refl _), encodedAs_of_perm (.refl _),
    encodedAs_of_perm (.refl _), encodedAs_of_perm (.refl _), encodedAs_of_perm (.refl _), encodedAs_of_perm (.refl _),
    fun s => ⟨?clc, ?sec, ?cli, ?sei, ?cld, ?sed, ?clv, ?nop⟩⟩
  case clc => exact impInstr_setP_eq_fallThrough rfl 2 (fun p => { p with c := false }) s
  case sec => exact impInstr_setP_eq_fallThrough rfl 2 (fun p => { p with c := true }) s
  case cli => exact impInstr_setP_eq_fallThrough rfl 2 (fun p => { p with i := false }) s
  case sei => exact impInstr_setP_eq_fallThrough rfl 2 (fun p => { p with i := true }) s
  case cld => exact impInstr_setP_eq_fallThrough rfl 2 (fun p => { p with d := false }) s
  case sed => exact impInstr_setP_eq_fallThrough rfl 2 (fun p => { p with d := true }) s
  case clv => exact impInstr_setP_eq_fallThrough rfl 2 (fun p => { p with v := false }) s
  case nop => exact impInstr_eq_fallThrough rfl 2 id s

end Sys2Proof.Machine
end

section
/-! PROOFS. Exceptions (60_exceptions.md R263 to R266, R280): the poll, the service sequence, the mask the poll reads, and the fault
of an illegal opcode. -/

namespace Sys2Proof.Machine

/-! ### What no instruction writes (R37, R38, R44, R45; log 10) -/

/-- The latches, the run status and the hidden state of the boundary, which belong to the poll and to a step's bookkeeping. -/
structure ControlState where
  nmiPending : Bool
  irqPending : Bool
  halted : Option Fault
  lastWasService : Bool
  iAtLastBoundary : Bool
  lastWasMaskOp : Bool

def State.control (s : State) : ControlState where
  nmiPending := s.nmiPending
  irqPending := s.irqPending
  halted := s.halted
  lastWasService := s.lastWasService
  iAtLastBoundary := s.iAtLastBoundary
  lastWasMaskOp := s.lastWasMaskOp

theorem ReadsOnly.control_eq {s t : State} (h : ReadsOnly s t) : t.control = s.control := by
  obtain ⟨_, _, rfl⟩ := h
  rfl

theorem rmwWrite_control (s : State) (ea : Addr) (v v' : Byte) : (s.rmwWrite ea v v').control = s.control := by
  obtain ⟨_, _, _, _, h⟩ := rmwWrite_frame s ea v v'
  rw [h]
  rfl

theorem readOp_control {m : Mnemonic} {k : Byte → State → Result} (h : readOp m = some k) {v : Byte} {s t : State}
    (hk : k v s = .next t) : t.control = s.control := by
  obtain ⟨_, _, _, _, rfl⟩ := readOp_next h hk
  rfl

theorem implied_control {i : Instr} (hi : i.form = .imp) {s t : State} (h : exec i s = .next t) : t.control = s.control := by
  cases i <;> cases hi <;> cases h
  all_goals simp [State.control]

/-- No instruction writes them, by access class (R126). -/
theorem exec_control {i : Instr} {s t : State} (h : exec i s = .next t) : t.control = s.control := by
  rcases exec_class i with ⟨b, k, -, hk, -, he⟩ | ⟨m, k, -, hk, -, he⟩ | ⟨m, r, -, -, -, he⟩ | ⟨m, f, -, -, -, -, he⟩ |
    ⟨f, -, -, -, he⟩ | ⟨b, c, -, -, -, he⟩ | ⟨⟨w, rfl⟩ | ⟨w, rfl⟩ | ⟨w, rfl⟩⟩ | hf
  case imm =>
    rw [he] at h
    exact readOp_control (s := s.retire 2 2) hk h
  case read =>
    rw [he, readInstr_next] at h
    exact (readOp_control hk h.2).trans (readsOnly_afterOperand s m).control_eq
  case write =>
    rw [he, writeInstr_next] at h
    obtain ⟨-, -, rfl⟩ := h
    exact (readsOnly_writeDummy s m).control_eq
  case modify =>
    rw [he, rmwInstr_next] at h
    obtain ⟨-, -, rfl⟩ := h
    exact (rmwWrite_control _ _ _ _).trans (readsOnly_afterRmwRead s m).control_eq
  case acc => rw [he, accInstr_next] at h; subst h; rfl
  case branch => rw [he, branchInstr_next] at h; subst h; split <;> rfl
  case implied => exact implied_control hf h
  all_goals cases h; rfl

/-! ### The poll (R263, R264) -/

theorem poll_of_lastWasService {s : State} (h : s.lastWasService = true) : s.poll = none := by
  simp [State.poll, h]

theorem poll_nmi {s : State} (hservice : s.lastWasService = false) (hnmi : s.nmiPending = true) : s.poll = some .nmi := by
  simp [State.poll, hservice, hnmi]

theorem poll_irq {s : State} (hservice : s.lastWasService = false) (hnmi : s.nmiPending = false) (hirq : s.irqPending = true)
    (hmask : s.effectiveI = false) : s.poll = some .irq := by
  simp [State.poll, hservice, hnmi, hirq, hmask]

theorem poll_of_nothing_pending {s : State} (hnmi : s.nmiPending = false) (hirq : s.irqPending = false ∨ s.effectiveI = true) :
    s.poll = none := by
  rcases hirq with hirq | hmask
  · simp [State.poll, hnmi, hirq]
  · simp [State.poll, hnmi, hmask]

/-! ### What the step does after the poll (R260) -/

section
variable {s : State} (hrunning : s.halted = none)
include hrunning

theorem step_of_poll_none (hpoll : s.poll = none) : step s = s.runInstruction := by
  simp [step, hrunning, hpoll]

theorem step_of_poll_some {k : Interrupt} (hpoll : s.poll = some k) (hread : s.fetchRefused s.pc = false) :
    step s = .next (s.service k) :=
  step_next.2 ⟨hrunning, .inl ⟨k, hpoll, hread, rfl⟩⟩

end

/-- An instruction's step leaves both latches (R37). -/
theorem runInstruction_latches {s t : State} (h : s.runInstruction = .next t) :
    t.nmiPending = s.nmiPending ∧ t.irqPending = s.irqPending := by
  obtain ⟨i, u, v, hfetch, -, hexec, rfl⟩ := runInstruction_next.1 h
  have hcontrol : v.control = s.control := (exec_control hexec).trans (fetch_readsOnly hfetch).control_eq
  exact ⟨congrArg ControlState.nmiPending hcontrol, congrArg ControlState.irqPending hcontrol⟩

/-- Settles O14: each clause by what the poll answers there, and the latches by what no instruction writes. -/
theorem stepPollsThenServicesOrExecutes : Obligations.StepPollsThenServicesOrExecutes := by
  refine fun s hrunning => ⟨fun hservice => ?afterService, fun hservice hnmi hread => ?nmi,
    fun hservice hnmi hirq hmask hread => ?irq, fun hnmi hirq => ?execute⟩
  case afterService =>
    have hstep := step_of_poll_none hrunning (poll_of_lastWasService hservice)
    exact ⟨hstep, fun t ht => runInstruction_latches (hstep ▸ ht)⟩
  case nmi =>
    refine ⟨step_of_poll_some hrunning (poll_nmi hservice hnmi) hread, ?_, ?_⟩
    · simp [service_irqPending]
    · simp
  case irq => exact step_of_poll_some hrunning (poll_irq hservice hnmi hirq hmask) hread
  case execute => exact step_of_poll_none hrunning (poll_of_nothing_pending hnmi hirq)

/-! ### The mask the poll reads (R265) -/

theorem effectiveI_of_latency_zero {s : State} (h : s.cfg.irqLatency = .zero) : s.effectiveI = s.p.i := by
  simp [State.effectiveI, h]

theorem effectiveI_of_latency_one {s : State} (h : s.cfg.irqLatency = .one) :
    s.effectiveI = if s.lastWasMaskOp then s.iAtLastBoundary else s.p.i := by
  simp [State.effectiveI, h]

theorem isMaskOp_iff (i : Instr) : isMaskOp i = true ↔ i.mnemonic = .CLI ∨ i.mnemonic = .SEI ∨ i.mnemonic = .PLP := by
  unfold isMaskOp
  cases i.mnemonic <;> simp

/-- The mask once an instruction that began with P.I = `i0` has committed. -/
theorem commit_effectiveI (s : State) (i : Instr) (i0 : Bool) :
    (s.commit i i0).effectiveI = if s.cfg.irqLatency = .one ∧ isMaskOp i = true then i0 else s.p.i := by
  cases h : s.cfg.irqLatency with
  | zero => simp [effectiveI_of_latency_zero, h]
  | one => by_cases hmask : isMaskOp i = true <;> simp [effectiveI_of_latency_one, h, hmask]

/-- Settles O15: latency 0 by the definition of the mask; an executed instruction by what its commit records of it. -/
theorem irqMaskAfterAnInstruction : Obligations.IrqMaskAfterAnInstruction := by
  refine ⟨fun s => effectiveI_of_latency_zero, fun s t u i hrunning hpoll hfetch hstep => ?_⟩
  have hcfg : t.cfg = s.cfg := (keepsUnreachable_step hstep).cfg_eq
  rw [step_of_poll_none hrunning hpoll] at hstep
  obtain ⟨j, w, v, hfetched, -, -, rfl⟩ := runInstruction_next.1 hstep
  cases hfetch.symm.trans hfetched
  simp only [commit_effectiveI, isMaskOp_iff, ← hcfg, commit_cfg, commit_p]

/-! ### The service sequence (R266) -/

/-- Settles O16: the rule's exception entry is the model's, and a service adds to it the latch, the cycles and the mark. -/
theorem serviceSequence : Obligations.ServiceSequence := by
  intro s
  simp only [spec_entry_eq]
  exact ⟨rfl, rfl⟩

/-! ### An illegal opcode (R280) -/

theorem runInstruction_of_fetch_fault {s : State} {f : Fault} (h : s.fetch = .fault f) : s.runInstruction = .fault f := by
  simp [State.runInstruction, h]

theorem advance_of_fault {s : State} {f : Fault} (h : step s = .fault f) : s.advance = s.haltedBy f := by
  simp [State.advance, h]

/-- A running machine halted by an illegal opcode keeps only the opcode read (R280). -/
theorem haltedBy_illegalOpcode {s : State} (hrunning : s.halted = none) (a : Addr) (op : Byte) :
    s.haltedBy (.illegalOpcode a op) = { s.afterRead s.pc with halted := some (.illegalOpcode a op) } := by
  simp [State.haltedBy, hrunning]

/-- Settles O12: the fetch faults, the fault halts the machine, and the one read reaches only the device and the free values. -/
theorem illegalOpcodeFaultsAndCommitsNothing : Obligations.IllegalOpcodeFaultsAndCommitsNothing := by
  intro s hrunning hpoll hread hillegal
  have hfetch : s.fetch = .fault (.illegalOpcode s.pc (s.peek s.pc)) :=
    fetch_fault.2 ⟨hread, by rw [opcodeLength, hillegal, Option.map_none], rfl⟩
  have hstep := (step_of_poll_none hrunning hpoll).trans (runInstruction_of_fetch_fault hfetch)
  exact ⟨hstep, (advance_of_fault hstep).trans (haltedBy_illegalOpcode hrunning _ _), readsOnly_afterRead s s.pc, afterRead_of_ram⟩

end Sys2Proof.Machine
end

section
/-! PROOFS. Reset (70_reset_and_hazards.md R300, R301): what a reset between steps keeps, what it sets, and where it reads PC. -/

namespace Sys2Proof.Machine

/-- With all port bits inputs, the pull-ups give `Cfg = 0b111`, whatever PortDATA holds (R40). -/
theorem bankCfg_of_portDDR_zero {s : State} (h : s.portDDR = 0x00#8) : s.bankCfg = 0b111#3 := by
  have hmix : s.portDATA ||| ~~~0x00#8 = BitVec.allOnes 8 := BitVec.or_allOnes
  rw [State.bankCfg, h, bankOf, hmix]
  rfl

/-- Apart from PC, which the vector gives, a reset leaves what `resetFields` sets: the vector's two reads change no other register. -/
theorem applyReset_readsOnly (s : State) (d : ResetDraws) :
    ReadsOnly { s.resetFields d with pc := (s.applyReset d).pc } (s.applyReset d) := ⟨_, _, rfl⟩

/-- PC after a reset: the word at 0xFFFC and 0xFFFD, read through the bus of the fields already reset (R300 step 3). -/
theorem applyReset_pc (s : State) (d : ResetDraws) :
    (s.applyReset d).pc =
      Spec.word (((s.resetFields d).afterRead 0xFFFC#16).peek 0xFFFD#16) ((s.resetFields d).peek 0xFFFC#16) :=
  congrArg Prod.fst (read16_eq (s.resetFields d) 0xFFFC#16)

/-- Settles O2: every register but PC is what `resetFields` sets, and PC is the vector read under `Cfg = 0b111`. -/
theorem warmResetKeepsRamAndPortData : Obligations.WarmResetKeepsRamAndPortData := by
  intro s d
  have hreads : ReadsOnly { s.resetFields d with pc := (s.applyReset d).pc } (s.boundary (.reset d)) := applyReset_readsOnly s d
  have hbank : (s.resetFields d).bankCfg = 0b111#3 := bankCfg_of_portDDR_zero (resetFields_portDDR s d)
  exact ⟨hreads.ram_eq, hreads.portDATA_eq, hreads.cfg_eq, hreads.halted_eq, hreads.sp_eq, hreads.p_eq, hreads.a_eq, hreads.x_eq,
    hreads.y_eq, hreads.nmiPending_eq, hreads.irqPending_eq, hreads.cycles_eq, hreads.portDDR_eq, hreads.lastWasService_eq,
    hreads.iAtLastBoundary_eq, hbank, applyReset_pc s d⟩

end Sys2Proof.Machine
end

section
/-! PROOFS. The encoding (30_encoding.md R90 to R98): the decoder's map and the encoder's table agree, so decoding and encoding are
inverse, and the length is the mode's. -/

namespace Sys2Proof

/-! ### What a shape makes of operand bytes -/

/-- The shape makes the instruction from these operand bytes (R93). -/
inductive Shape.Makes : Shape → Instr → List Byte → Prop where
  | bare (i : Instr) : Makes (.bare i) i []
  | withByte (mk : Byte → Instr) (b : Byte) : Makes (.withByte mk) (mk b) [b]
  | withWord (mk : Addr → Instr) (w : Addr) : Makes (.withWord mk) (mk w) (wordBytes w)

theorem Shape.Makes.length_eq {sh : Shape} {i : Instr} {bs : List Byte} (h : sh.Makes i bs) : sh.length = 1 + bs.length := by
  cases h <;> rfl

/-- Two bytes are the operand bytes of the word they join to, low byte first (R93). -/
theorem wordBytes_wordOf (h l : Byte) : wordBytes (wordOf h l) = [l, h] := by
  rw [wordBytes, loByte_wordOf, hiByte_wordOf]

/-- What decodes: the opcode's shape makes the instruction from the bytes that follow. -/
theorem decode_cons_ok {op : Byte} {bs rest : List Byte} {i : Instr} :
    decode (op :: bs) = .ok (i, rest) ↔ ∃ sh os, shapeOf op = some sh ∧ sh.Makes i os ∧ bs = os ++ rest := by
  constructor
  · intro h
    simp only [decode] at h
    split at h
    · cases h
    · next j hs => cases h; exact ⟨_, [], hs, .bare _, rfl⟩
    · next mk hs =>
      split at h <;> cases h
      exact ⟨_, _, hs, .withByte mk _, rfl⟩
    · next mk hs =>
      split at h <;> cases h
      exact ⟨_, _, hs, .withWord mk _, by rw [wordBytes_wordOf]; rfl⟩
  · rintro ⟨sh, os, hs, hm, rfl⟩
    unfold decode
    cases hm <;> simp [hs, wordBytes]

/-! ### The map of R97 against the table of R98 -/

/-- Row by row of the map: an instruction that the shape of an opcode makes has that opcode and those operand bytes. -/
theorem encode_of_shapeOf {op : Byte} {sh : Shape} (hs : shapeOf op = some sh) {i : Instr} {os : List Byte} (h : sh.Makes i os) :
    encode i = op :: os := by
  have hop : op = BitVec.ofNat 8 (16 * (op.toNat / 16) + op.toNat % 16) := by
    rw [Nat.div_add_mod, BitVec.ofNat_toNat, BitVec.setWidth_eq]
  have hrow : op.toNat / 16 < 16 := by have := op.isLt; omega
  rw [hop]
  unfold shapeOf at hs
  generalize op.toNat / 16 = r at hs hrow ⊢
  generalize op.toNat % 16 = c at hs ⊢
  interval_cases r
  all_goals
    simp only [opRow0.eq_def, opRow1.eq_def, opRow2.eq_def, opRow3.eq_def, opRow4.eq_def, opRow5.eq_def, opRow6.eq_def,
      opRow7.eq_def, opRow8.eq_def, opRow9.eq_def, opRowA.eq_def, opRowB.eq_def, opRowC.eq_def, opRowD.eq_def,
      opRowE.eq_def, opRowF.eq_def] at hs
    split at hs <;> cases hs <;> cases h <;> rfl

/-- Every instruction is made by the shape of its own opcode, from its own operand bytes. -/
theorem shapeOf_opcode (i : Instr) : ∃ sh, shapeOf i.opcode = some sh ∧ sh.Makes i i.form.bytes := by
  cases i <;> simp only [Instr.opcode, Instr.form, Instr.descriptor, Form.bytes, MemForm.bytes]
  all_goals exact ⟨_, rfl, by constructor⟩

/-! ### The statements -/

/-- Settles O6: the opcode's shape makes the instruction from its operand bytes. -/
theorem decodeOfEncodeIsTheInstruction : Obligations.DecodeOfEncodeIsTheInstruction := by
  intro i rest
  obtain ⟨sh, hs, hm⟩ := shapeOf_opcode i
  exact decode_cons_ok.2 ⟨sh, i.form.bytes, hs, hm, rfl⟩

/-- Settles O7: the bytes are the opcode and the operand bytes from which its shape makes the instruction. -/
theorem encodeOfDecodeIsTheBytes : Obligations.EncodeOfDecodeIsTheBytes := by
  intro bs rest i h
  cases bs with
  | nil => cases h
  | cons op bs =>
    obtain ⟨sh, os, hs, hm, rfl⟩ := decode_cons_ok.1 h
    rw [encode_of_shapeOf hs hm, List.cons_append]

/-- An opcode byte is refused exactly where the map has no shape for it, whatever follows (R94). -/
theorem decode_illegalOpcode_iff (op : Byte) (rest : List Byte) :
    decode (op :: rest) = .error (.illegalOpcode op) ↔ (shapeOf op).isNone = true := by
  simp only [decode]
  cases shapeOf op with
  | none => simp
  | some sh =>
    cases sh with
    | bare => simp
    | withByte | withWord => simp only [Option.isNone_some, Bool.false_eq_true, iff_false]; split <;> simp

/-- Settles O8: the holes of the map are the listed bytes. -/
theorem exactlyTheseOpcodesAreIllegal : Obligations.ExactlyTheseOpcodesAreIllegal := by
  intro op rest
  rw [decode_illegalOpcode_iff]
  revert op
  decide +kernel

/-- The operand bytes of a form are as many as its mode's length leaves beside the opcode (R91). -/
theorem Form.length_bytes (f : Form) : 1 + f.bytes.length = f.mode.length := by
  cases f with
  | mem m => cases m <;> rfl
  | imp | acc | imm | ind | rel => rfl

/-- Settles O9: the encoder writes the mode's length, and the shape of the opcode asks for it. -/
theorem lengthIsByModeAlone : Obligations.LengthIsByModeAlone := by
  refine ⟨fun i => ⟨?encoded, ?opcode⟩, rfl, rfl, rfl, rfl, rfl, rfl, rfl, rfl, rfl, rfl, rfl, rfl, rfl⟩
  case encoded => rw [encode, List.length_cons, Nat.add_comm, Form.length_bytes]
  case opcode =>
    obtain ⟨sh, hs, hm⟩ := shapeOf_opcode i
    rw [opcodeLength, hs, Option.map_some, hm.length_eq, Form.length_bytes]

/-- Settles O10: each word by running the decoder on it. -/
theorem wordsOfTheTableDecode : Obligations.WordsOfTheTableDecode :=
  ⟨rfl, rfl, rfl, rfl, rfl, rfl, rfl, rfl, rfl⟩

end Sys2Proof
end

section
/-! PROOFS. What an instruction that completes leaves, said once by its access class (40_addressing_modes.md R126), for the frame
rules and the invariant. -/

namespace Sys2Proof.Machine

/-- The ways instruction `i` takes `s` to `t`. -/
inductive ExecNext (i : Instr) (s t : State) : Prop where
  | operand (k : Byte → State → Result) (v : Byte) (u : State) (len cost : Nat) (hk : readOp i.mnemonic = some k)
      (hu : ReadsOnly s u) (ht : k v (u.retire len cost) = .next t)
  | store (m : MemForm) (r : State → Byte) (u : State) (len cost : Nat) (hf : i.form = .mem m) (hr : storeOp i.mnemonic = some r)
      (hu : ReadsOnly s u) (hvalid : u.bankWriteInvalid (s.resolve m).ea (r s) = false)
      (ht : t = (u.memWrite (s.resolve m).ea (r s)).retire len cost)
  | modify (m : MemForm) (f : Byte → Flags → Byte × Flags) (u : State) (v : Byte) (len cost : Nat) (hf : i.form = .mem m)
      (hk : modifyOp i.mnemonic = some f) (hu : ReadsOnly s u) (hvalid : u.rmwInvalid (s.resolve m).ea v (f v s.p).1 = false)
      (ht : t = ((u.rmwWrite (s.resolve m).ea v (f v s.p).1).setP (f v s.p).2).retire len cost)
  | acc (f : Byte → Flags → Byte × Flags) (hf : i.form = .acc) (hk : modifyOp i.mnemonic = some f)
      (ht : t = (s.setAP (f s.a s.p)).retire 1 2)
  | jump (u : State) (pc : Addr) (cost : Nat) (hu : ReadsOnly s u) (ht : t = u.jumpTo pc cost)
  | call (w : Addr) (hi : i = .jsr w) (ht : t = (s.pushWord (s.pc + 2#16)).jumpTo w 6)
  | implied (hf : i.form = .imp)

theorem exec_next {i : Instr} {s t : State} (h : exec i s = .next t) : ExecNext i s t := by
  rcases exec_class i with ⟨b, k, -, hk, -, he⟩ | ⟨m, k, -, hk, -, he⟩ | ⟨m, r, hf, hr, -, he⟩ | ⟨m, f, hf, hk, -, -, he⟩ |
    ⟨f, hf, hk, -, he⟩ | ⟨b, c, -, -, -, he⟩ | ⟨⟨w, rfl⟩ | ⟨w, rfl⟩ | ⟨w, rfl⟩⟩ | hf
  case imm => rw [he] at h; exact .operand k b s 2 2 hk (.refl s) h
  case read =>
    rw [he, readInstr_next] at h
    exact .operand k _ _ _ _ hk (readsOnly_afterOperand s m) h.2
  case write =>
    rw [he, writeInstr_next] at h
    obtain ⟨-, hvalid, ht⟩ := h
    exact .store m r _ _ _ hf hr (readsOnly_writeDummy s m) hvalid ht
  case modify =>
    rw [he, rmwInstr_next] at h
    obtain ⟨-, hvalid, ht⟩ := h
    exact .modify m f _ _ _ _ hf hk (readsOnly_afterRmwRead s m) hvalid ht
  case acc => rw [he, accInstr_next] at h; exact .acc f hf hk h
  case branch =>
    rw [he, branchInstr_next] at h
    split at h <;> exact .jump s _ _ (.refl s) h
  case implied => exact .implied hf
  · cases h; exact .call w rfl rfl
  · cases h; exact .jump s w 3 (.refl s) rfl
  · cases h; exact .jump _ _ 5 (readsOnly_read16pw s w) rfl

end Sys2Proof.Machine
end

section
/-! PROOFS. The invariant of the machine is kept by every step (20_memory.md R41, R67; 60_exceptions.md R266). -/

namespace Sys2Proof.Machine

/-- The part of the invariant that memory accesses touch. -/
structure State.MemoryInv (s : State) : Prop where
  ramCanonical : s.ram.wf = true
  ramInSpace : s.ram.within 65536 = true
  bankIsValid : s.bankValid = true

theorem State.Inv.memoryInv {s : State} (h : s.Inv) : s.MemoryInv := ⟨h.ramCanonical, h.ramInSpace, h.bankIsValid⟩

/-- It speaks of RAM, the port registers and the configuration only. -/
theorem State.MemoryInv.congr {s t : State} (h : s.MemoryInv) (hr : t.ram = s.ram) (hd : t.portDDR = s.portDDR)
    (hv : t.portDATA = s.portDATA) (hc : t.cfg = s.cfg) : t.MemoryInv := by
  obtain ⟨hw, hn, hb⟩ := h
  refine ⟨hr ▸ hw, hr ▸ hn, ?_⟩
  unfold State.bankValid State.bankCfg at *
  rwa [hd, hv, hc]

theorem ReadsOnly.memoryInv {s t : State} (h : ReadsOnly s t) (hs : s.MemoryInv) : t.MemoryInv :=
  hs.congr h.ram_eq h.portDDR_eq h.portDATA_eq h.cfg_eq

/-- A write that the check lets through leaves a valid bank configuration (R67). -/
theorem bankValid_memWrite {s : State} (hs : s.bankValid = true) {a : Addr} {v : Byte} (h : s.bankWriteInvalid a v = false) :
    (s.memWrite a v).bankValid = true := by
  unfold State.bankValid State.bankWriteInvalid State.bankCfg at *
  rw [memWrite_cfg, memWrite_portDDR, memWrite_portDATA]
  cases hm : s.cfg.busMap with
  | c64 => rfl
  | table regions invalid =>
    simp only [hm] at hs h ⊢
    by_cases h0 : a = 0x0000#16
    · subst h0; simpa using h
    · by_cases h1 : a = 0x0001#16
      · subst h1; simpa using h
      · simpa [h0, h1] using hs

theorem State.MemoryInv.memWrite {s : State} (hs : s.MemoryInv) {a : Addr} {v : Byte} (h : s.bankWriteInvalid a v = false) :
    (s.memWrite a v).MemoryInv :=
  ⟨ramAfterWrite_wf hs.ramCanonical a v, ramAfterWrite_within hs.ramInSpace a v, bankValid_memWrite hs.bankIsValid h⟩

/-- Both writes of a read-modify-write are checked under `NMOS_DUMMY` (log 21). -/
theorem State.MemoryInv.rmwWrite {s : State} (hs : s.MemoryInv) {ea : Addr} {v v' : Byte} (h : s.rmwInvalid ea v v' = false) :
    (s.rmwWrite ea v v').MemoryInv := by
  unfold State.rmwInvalid at h
  unfold State.rmwWrite
  split at h
  · exact hs.memWrite h
  · rw [Bool.or_eq_false_iff] at h
    exact (hs.memWrite h.1).memWrite h.2

/-- A push never writes the port. -/
theorem State.MemoryInv.push {s : State} (hs : s.MemoryInv) (v : Byte) : (s.push v).MemoryInv := by
  have hvalid : s.bankWriteInvalid (stackAddr s.sp) v = false := by
    unfold State.bankWriteInvalid
    split
    · rfl
    · rw [if_neg (stackAddr_ne_zero _), if_neg (stackAddr_ne_one _)]
  exact (hs.memWrite hvalid).congr rfl rfl rfl rfl

theorem State.MemoryInv.pushWord {s : State} (hs : s.MemoryInv) (w : Addr) : (s.pushWord w).MemoryInv := (hs.push _).push _

theorem State.MemoryInv.takeException {s : State} (hs : s.MemoryInv) (ret : Addr) (b : Bool) (vector : Addr) :
    (s.takeException ret b vector).MemoryInv :=
  ((hs.pushWord ret).push (s.p.pack b)).congr (takeException_ram s ret b vector) (by simp) (by simp) (by simp)

theorem State.MemoryInv.service {s : State} (hs : s.MemoryInv) (k : Interrupt) : (s.service k).MemoryInv :=
  (hs.takeException s.pc false k.vector).congr (service_ram s k) (by simp) (by simp) (by simp)

/-- Of the implied instructions only PHA, PHP and BRK write to memory, and only by pushes. -/
theorem State.MemoryInv.implied {i : Instr} (hi : i.form = .imp) {s t : State} (hs : s.MemoryInv) (h : exec i s = .next t) :
    t.MemoryInv := by
  cases i <;> cases hi <;> cases h
  case pha => exact (hs.push s.a).congr rfl rfl rfl rfl
  case php => exact (hs.push (s.p.pack true)).congr rfl rfl rfl rfl
  case brk => exact (hs.takeException (s.pc + 2#16) true 0xFFFE#16).congr rfl rfl rfl rfl
  case rti => exact hs.congr (returnFromException_ram s) (by simp) (by simp) (by simp)
  all_goals exact hs.congr rfl rfl rfl rfl

theorem State.MemoryInv.exec {i : Instr} {s t : State} (hs : s.MemoryInv) (h : exec i s = .next t) : t.MemoryInv := by
  cases exec_next h with
  | operand k v u len cost hk hu ht =>
    obtain ⟨_, _, _, _, rfl⟩ := readOp_next hk ht
    exact (hu.memoryInv hs).congr rfl rfl rfl rfl
  | store m r u len cost _ _ hu hvalid ht => subst ht; exact ((hu.memoryInv hs).memWrite hvalid).congr rfl rfl rfl rfl
  | modify m f u v len cost _ _ hu hvalid ht => subst ht; exact ((hu.memoryInv hs).rmwWrite hvalid).congr rfl rfl rfl rfl
  | acc f _ _ ht => subst ht; exact hs.congr rfl rfl rfl rfl
  | jump u pc cost hu ht => subst ht; exact (hu.memoryInv hs).congr rfl rfl rfl rfl
  | call w _ ht => subst ht; exact (hs.pushWord _).congr rfl rfl rfl rfl
  | implied hf => exact hs.implied hf h

/-- Settles O56: a service sets I; an instruction's commit clears the mark of a service; both keep what memory accesses touch. -/
theorem everyStepKeepsTheInvariant : Obligations.EveryStepKeepsTheInvariant := by
  intro s t hs h
  have hm := hs.memoryInv
  obtain ⟨-, ⟨k, -, -, rfl⟩ | ⟨-, i, u, v, hf, -, he, rfl⟩⟩ := step_next.1 h
  · obtain ⟨hw, hn, hb⟩ := hm.service k
    exact ⟨hw, hn, hb, fun _ => by simp⟩
  · obtain ⟨hw, hn, hb⟩ := (((fetch_readsOnly hf).memoryInv hm).exec he).congr (commit_ram v i s.p.i) rfl rfl rfl
    exact ⟨hw, hn, hb, fun hservice => by simp at hservice⟩

/-- Settles O4: at reset RAM is empty, the map is the C64's and no service has run. -/
theorem resetMeetsTheInvariant : Obligations.ResetMeetsTheInvariant := ⟨rfl, rfl, rfl, fun h => nomatch h⟩

end Sys2Proof.Machine
end

section
/-! PROOFS. The frame of an instruction (10_state.md R21 to R25, R33, R35, R37; 40_addressing_modes.md R126): which registers, flags
and memory bytes it leaves. -/

namespace Sys2Proof.Machine

/-! ### Registers (R21, R22, R23, R25) -/

/-- Of the read class only the loads, ADC, SBC and the logic operations write a register. -/
theorem readOp_registers {m : Mnemonic} {k : Byte → State → Result} (h : readOp m = some k) {v : Byte} {s t : State}
    (hk : k v s = .next t) :
    (m ∉ [.LDA, .ADC, .SBC, .AND, .ORA, .EOR] → t.a = s.a) ∧ (m ≠ .LDX → t.x = s.x) ∧ (m ≠ .LDY → t.y = s.y) ∧ t.sp = s.sp := by
  cases m <;> cases h <;>
    simp only [opLda_next, opLdx_next, opLdy_next, opCmp_next, opCpx_next, opCpy_next, opAnd_next, opOra_next, opEor_next,
      opBit_next, opAdc_next, opSbc_next] at hk
  case ADC | SBC => simp [hk.2]
  all_goals simp [hk]

/-- The implied instructions by their own updates. -/
theorem implied_registers {i : Instr} (hi : i.form = .imp) {s t : State} (h : exec i s = .next t) :
    (¬ Spec.writesA i → t.a = s.a) ∧ (¬ Spec.writesX i → t.x = s.x) ∧ (¬ Spec.writesY i → t.y = s.y) ∧
    (¬ Spec.writesS i → t.sp = s.sp) := by
  cases i <;> cases hi <;> cases h
  all_goals simp [Spec.writesA, Spec.writesX, Spec.writesY, Spec.writesS, Instr.mnemonic, Instr.descriptor]

theorem exec_registers {i : Instr} {s t : State} (h : exec i s = .next t) :
    (¬ Spec.writesA i → t.a = s.a) ∧ (¬ Spec.writesX i → t.x = s.x) ∧ (¬ Spec.writesY i → t.y = s.y) ∧
    (¬ Spec.writesS i → t.sp = s.sp) := by
  cases exec_next h with
  | operand k v u len cost hk hu ht =>
    obtain ⟨ha, hx, hy, hs⟩ := readOp_registers hk ht
    refine ⟨fun hi => (ha fun hm => hi (.inl ?_)).trans hu.a_eq, fun hi => (hx fun hm => hi ?_).trans hu.x_eq,
      fun hi => (hy fun hm => hi ?_).trans hu.y_eq, fun _ => hs.trans hu.sp_eq⟩
    · have hlisted : [.LDA, .ADC, .SBC, .AND, .ORA, .EOR] ⊆ [Mnemonic.LDA, .TXA, .TYA, .PLA, .ADC, .SBC, .AND, .ORA, .EOR] := by
        decide
      exact hlisted hm
    · simp [Spec.writesX, hm]
    · simp [Spec.writesY, hm]
  | store m r u len cost hf hr hu hvalid ht =>
    subst ht
    exact ⟨fun _ => hu.a_eq, fun _ => hu.x_eq, fun _ => hu.y_eq, fun _ => hu.sp_eq⟩
  | modify m f u v len cost hf hk hu hvalid ht => subst ht; simp [hu.a_eq, hu.x_eq, hu.y_eq, hu.sp_eq]
  | acc f hf hk ht => subst ht; exact ⟨fun hi => absurd (.inr hf) hi, fun _ => rfl, fun _ => rfl, fun _ => rfl⟩
  | jump u pc cost hu ht => subst ht; exact ⟨fun _ => hu.a_eq, fun _ => hu.x_eq, fun _ => hu.y_eq, fun _ => hu.sp_eq⟩
  | call w hi ht => subst hi ht; simp [Spec.writesS, Instr.mnemonic, Instr.descriptor]
  | implied hf => exact implied_registers hf h

/-- Settles O48: the registers by access class, the latches and hidden state by what no instruction writes. -/
theorem registersAreWrittenOnlyByTheirInstructions : Obligations.RegistersAreWrittenOnlyByTheirInstructions := by
  intro i s t h
  obtain ⟨ha, hx, hy, hs⟩ := exec_registers h
  have hcontrol : t.control = s.control := exec_control h
  exact ⟨ha, hx, hy, hs, congrArg ControlState.nmiPending hcontrol, congrArg ControlState.irqPending hcontrol,
    congrArg ControlState.halted hcontrol, congrArg ControlState.lastWasService hcontrol,
    congrArg ControlState.iAtLastBoundary hcontrol, congrArg ControlState.lastWasMaskOp hcontrol⟩

/-! ### Flags (R35) -/

/-- `p'` is `p` after instruction `i`: a flag that R35 does not list for it is the same. -/
structure FlagsKept (i : Instr) (p p' : Flags) : Prop where
  nz : ¬ Spec.writesNZ i → p'.n = p.n ∧ p'.z = p.z
  overflow : ¬ Spec.writesV i → p'.v = p.v
  carry : ¬ Spec.writesC i → p'.c = p.c
  mask : ¬ Spec.writesI i → p'.i = p.i
  decimal : ¬ Spec.writesD i → p'.d = p.d

theorem FlagsKept.of_eq {i : Instr} {p p' : Flags} (h : p' = p) : FlagsKept i p p' := by
  subst h
  exact ⟨fun _ => ⟨rfl, rfl⟩, fun _ => rfl, fun _ => rfl, fun _ => rfl, fun _ => rfl⟩

/-- ADC leaves I and D, in both modes (R35). -/
theorem adcResult_flags (a m : Byte) (p : Flags) : (adcResult a m p).2.i = p.i ∧ (adcResult a m p).2.d = p.d := by
  unfold adcResult
  split <;> exact ⟨rfl, rfl⟩

/-- SBC leaves I and D, in both modes (R35). -/
theorem sbcResult_flags (a m : Byte) (p : Flags) : (sbcResult a m p).2.i = p.i ∧ (sbcResult a m p).2.d = p.d := by
  unfold sbcResult
  split <;> exact ⟨rfl, rfl⟩

/-- The read class: all write N and Z, none I or D; V and C by the mnemonic. -/
theorem readOp_flagsKept {i : Instr} {k : Byte → State → Result} (h : readOp i.mnemonic = some k) {v : Byte} {s t : State}
    (hk : k v s = .next t) : FlagsKept i s.p t.p := by
  cases hm : i.mnemonic <;> rw [hm] at h <;> cases h <;>
    simp only [opLda_next, opLdx_next, opLdy_next, opCmp_next, opCpx_next, opCpy_next, opAnd_next, opOra_next, opEor_next,
      opBit_next, opAdc_next, opSbc_next] at hk
  case ADC =>
    rw [hk.2, setAP_p]
    obtain ⟨hi, hd⟩ := adcResult_flags s.a v s.p
    exact ⟨by simp [Spec.writesNZ, hm], by simp [Spec.writesV, hm], by simp [Spec.writesC, hm], fun _ => hi, fun _ => hd⟩
  case SBC =>
    rw [hk.2, setAP_p]
    obtain ⟨hi, hd⟩ := sbcResult_flags s.a v s.p
    exact ⟨by simp [Spec.writesNZ, hm], by simp [Spec.writesV, hm], by simp [Spec.writesC, hm], fun _ => hi, fun _ => hd⟩
  all_goals
    subst hk
    constructor <;>
      simp [Spec.writesNZ, Spec.writesV, Spec.writesC, Spec.writesI, Spec.writesD, hm, Flags.setNZ, compareFlags, bitFlags]

/-- The read-modify-write class: all write N and Z, the shifts and rotates C (R35). -/
theorem modifyOp_flagsKept {i : Instr} {f : Byte → Flags → Byte × Flags} (h : modifyOp i.mnemonic = some f) (v : Byte) (p : Flags) :
    FlagsKept i p (f v p).2 := by
  cases hm : i.mnemonic <;> rw [hm] at h <;> cases h
  all_goals
    constructor <;>
      simp [Spec.writesNZ, Spec.writesV, Spec.writesC, Spec.writesI, Spec.writesD, hm, Flags.setNZ, aslResult, lsrResult,
        rolResult, rorResult, incResult, decResult]

/-- The implied instructions by their own updates. -/
theorem implied_flagsKept {i : Instr} (hi : i.form = .imp) {s t : State} (h : exec i s = .next t) : FlagsKept i s.p t.p := by
  cases i <;> cases hi <;> cases h
  all_goals
    constructor <;>
      simp [Spec.writesNZ, Spec.writesV, Spec.writesC, Spec.writesI, Spec.writesD, Instr.mnemonic, Instr.descriptor, Flags.setNZ]

theorem exec_flagsKept {i : Instr} {s t : State} (h : exec i s = .next t) : FlagsKept i s.p t.p := by
  cases exec_next h with
  | operand k v u len cost hk hu ht =>
    have hkept : FlagsKept i (u.retire len cost).p t.p := readOp_flagsKept hk ht
    rwa [retire_p, hu.p_eq] at hkept
  | store m r u len cost hf hr hu hvalid ht => subst ht; exact .of_eq hu.p_eq
  | modify m f u v len cost hf hk hu hvalid ht => subst ht; exact modifyOp_flagsKept hk v s.p
  | acc f hf hk ht => subst ht; exact modifyOp_flagsKept hk s.a s.p
  | jump u pc cost hu ht => subst ht; exact .of_eq hu.p_eq
  | call w hi ht => subst ht; exact .of_eq rfl
  | implied hf => exact implied_flagsKept hf h

/-- Settles O49: the flags by access class. -/
theorem flagsAreWrittenOnlyByTheirInstructions : Obligations.FlagsAreWrittenOnlyByTheirInstructions := by
  intro i s t h
  obtain ⟨hnz, hv, hc, hi, hd⟩ := exec_flagsKept h
  exact ⟨hnz, hv, hc, hi, hd⟩

/-! ### Memory (R126, R56) -/

/-- From `s` to `t` nothing is stored but at the addresses `as`: no other RAM byte, and no port register, changes. -/
structure StoresOnlyAt (as : List Addr) (s t : State) : Prop where
  ram_read : ∀ a : Addr, a ∉ as → t.ram.read a.toNat = s.ram.read a.toNat
  portDDR : 0x0000#16 ∉ as → t.portDDR = s.portDDR
  portDATA : 0x0001#16 ∉ as → t.portDATA = s.portDATA
  ram_eq : as = [] → t.ram = s.ram

theorem StoresOnlyAt.of_eq {as : List Addr} {s t : State} (hr : t.ram = s.ram) (hd : t.portDDR = s.portDDR)
    (hv : t.portDATA = s.portDATA) : StoresOnlyAt as s t :=
  ⟨fun _ _ => by rw [hr], fun _ => hd, fun _ => hv, fun _ => hr⟩

theorem ReadsOnly.storesOnlyAt {as : List Addr} {s t : State} (h : ReadsOnly s t) : StoresOnlyAt as s t :=
  .of_eq h.ram_eq h.portDDR_eq h.portDATA_eq

theorem StoresOnlyAt.trans {as bs : List Addr} {s t u : State} (h : StoresOnlyAt as s t) (h' : StoresOnlyAt bs t u) :
    StoresOnlyAt (as ++ bs) s u where
  ram_read a ha := by
    rw [List.mem_append, not_or] at ha
    exact (h'.ram_read a ha.2).trans (h.ram_read a ha.1)
  portDDR ha := by
    rw [List.mem_append, not_or] at ha
    exact (h'.portDDR ha.2).trans (h.portDDR ha.1)
  portDATA ha := by
    rw [List.mem_append, not_or] at ha
    exact (h'.portDATA ha.2).trans (h.portDATA ha.1)
  ram_eq hnil := by
    rw [List.append_eq_nil_iff] at hnil
    exact (h'.ram_eq hnil.2).trans (h.ram_eq hnil.1)

/-- Reads before and register updates after do not count. -/
theorem StoresOnlyAt.between {as : List Addr} {s u v t : State} (h : StoresOnlyAt as u v) (hu : ReadsOnly s u)
    (hr : t.ram = v.ram) (hd : t.portDDR = v.portDDR) (hv : t.portDATA = v.portDATA) : StoresOnlyAt as s t := by
  have hafter := h.trans (.of_eq (as := []) hr hd hv)
  rw [List.append_nil] at hafter
  exact (hu.storesOnlyAt (as := [])).trans hafter

theorem storesOnlyAt_memWrite (s : State) (a : Addr) (v : Byte) : StoresOnlyAt [a] s (s.memWrite a v) where
  ram_read _ hb := ramAfterWrite_read_other s v fun h => hb (List.mem_singleton.2 (BitVec.eq_of_toNat_eq h))
  portDDR h := if_neg fun e => h (List.mem_singleton.2 e.symm)
  portDATA h := if_neg fun e => h (List.mem_singleton.2 e.symm)
  ram_eq h := nomatch h

theorem storesOnlyAt_rmwWrite (s : State) (ea : Addr) (v v' : Byte) : StoresOnlyAt [ea] s (s.rmwWrite ea v v') where
  ram_read _ hb := rmwWrite_read_other s v v' fun h => hb (List.mem_singleton.2 (BitVec.eq_of_toNat_eq h))
  portDDR h := (rmwWrite_port s v v').1.trans (if_neg fun e => h (List.mem_singleton.2 e.symm))
  portDATA h := (rmwWrite_port s v v').2.trans (if_neg fun e => h (List.mem_singleton.2 e.symm))
  ram_eq h := nomatch h

theorem storesOnlyAt_push (s : State) (v : Byte) : StoresOnlyAt [stackAddr s.sp] s (s.push v) :=
  (storesOnlyAt_memWrite s (stackAddr s.sp) v).between (.refl s) rfl rfl rfl

theorem storesOnlyAt_pushWord (s : State) (w : Addr) : StoresOnlyAt [stackAddr s.sp, stackAddr (s.sp - 1#8)] s (s.pushWord w) :=
  (storesOnlyAt_push s (hiByte w)).trans (storesOnlyAt_push (s.push (hiByte w)) (loByte w))

theorem storesOnlyAt_takeException (s : State) (ret : Addr) (b : Bool) (vector : Addr) :
    StoresOnlyAt [stackAddr s.sp, stackAddr (s.sp - 1#8), stackAddr (s.sp - 2#8)] s (s.takeException ret b vector) := by
  have hthird : s.sp - 2#8 = (s.pushWord ret).sp := by simp [BitVec.sub_sub]
  rw [hthird]
  exact ((storesOnlyAt_pushWord s ret).trans (storesOnlyAt_push _ (s.p.pack b))).between (.refl s)
    (takeException_ram s ret b vector) (by simp) (by simp)

/-- The write and read-modify-write classes store at their effective address (R126). -/
theorem storedAt_mem {i : Instr} {m : MemForm} (hf : i.form = .mem m)
    (hi : storeOp i.mnemonic ≠ none ∨ modifyOp i.mnemonic ≠ none) (s : State) : Spec.storedAt i s = [(s.resolve m).ea] := by
  unfold Spec.storedAt
  rw [hf]
  cases hm : i.mnemonic <;> simp [hm, storeOp, modifyOp] at hi ⊢

theorem storesOnlyAt_implied {i : Instr} (hi : i.form = .imp) {s t : State} (h : exec i s = .next t) :
    StoresOnlyAt (Spec.storedAt i s) s t := by
  cases i <;> cases hi <;> cases h
  case pha => exact (storesOnlyAt_push s s.a).between (.refl s) rfl rfl rfl
  case php => exact (storesOnlyAt_push s (s.p.pack true)).between (.refl s) rfl rfl rfl
  case brk => exact (storesOnlyAt_takeException s (s.pc + 2#16) true 0xFFFE#16).between (.refl s) rfl rfl rfl
  case rti => exact .of_eq (returnFromException_ram s) (by simp) (by simp)
  all_goals exact .of_eq rfl rfl rfl

theorem exec_storesOnlyAt {i : Instr} {s t : State} (h : exec i s = .next t) : StoresOnlyAt (Spec.storedAt i s) s t := by
  cases exec_next h with
  | operand k v u len cost hk hu ht =>
    obtain ⟨_, _, _, _, rfl⟩ := readOp_next hk ht
    exact .of_eq hu.ram_eq hu.portDDR_eq hu.portDATA_eq
  | store m r u len cost hf hr hu hvalid ht =>
    rw [storedAt_mem hf (.inl (by simp [hr])), ht]
    exact (storesOnlyAt_memWrite u _ _).between hu rfl rfl rfl
  | modify m f u v len cost hf hk hu hvalid ht =>
    rw [storedAt_mem hf (.inr (by simp [hk])), ht]
    exact (storesOnlyAt_rmwWrite u _ _ _).between hu rfl rfl rfl
  | acc f hf hk ht => subst ht; exact .of_eq rfl rfl rfl
  | jump u pc cost hu ht => subst ht; exact .of_eq hu.ram_eq hu.portDDR_eq hu.portDATA_eq
  | call w hi ht => subst hi ht; exact (storesOnlyAt_pushWord s _).between (.refl s) rfl rfl rfl
  | implied hf => exact storesOnlyAt_implied hf h

/-- Seen through the bus: with the port registers kept, what reads RAM, a ROM or PortDDR and is not stored to reads as before. -/
theorem StoresOnlyAt.peek_eq {as : List Addr} {s t : State} (h : StoresOnlyAt as s t) (hcfg : t.cfg = s.cfg)
    (h0 : 0x0000#16 ∉ as) (h1 : 0x0001#16 ∉ as) {a : Addr} (ha : a ∉ as)
    (hread : a = 0x0000#16 ∨ s.select a .read = .ram ∨ s.select a .read = .basic ∨ s.select a .read = .kernal ∨
      s.select a .read = .char) : t.peek a = s.peek a := by
  have hselect : t.select a .read = s.select a .read := select_congr (h.portDDR h0) (h.portDATA h1) hcfg a .read
  rcases hread with rfl | hram | hrom | hrom | hrom
  · have hport (u : State) : u.peek 0x0000#16 = u.portDDR := peek_of_port (select_port_of_lt u .read (by decide))
    rw [hport, hport, h.portDDR h0]
  · rw [peek_of_ram hram, peek_of_ram (hselect.trans hram), h.ram_read a ha]
  all_goals simp only [State.peek, hselect, hrom, hcfg]

/-- Settles O50: the stores by access class, and the bus by what it selects when the port registers are kept. -/
theorem memoryChangesOnlyWhereInstructionsStore : Obligations.MemoryChangesOnlyWhereInstructionsStore := by
  intro i s t h
  have hstores := exec_storesOnlyAt h
  exact ⟨hstores.ram_read, hstores.portDDR, hstores.portDATA, hstores.ram_eq,
    fun h0 h1 a ha hread => hstores.peek_eq (keepsUnreachable_exec h).cfg_eq h0 h1 ha hread⟩

/-! ### A step: the latches (R37) and the mask (R33) -/

/-- Settles O51: a service clears its own latch, and no instruction writes one. -/
theorem latchesAreClearedOnlyByTheirService : Obligations.LatchesAreClearedOnlyByTheirService := by
  intro s t h
  obtain ⟨hrunning, ⟨k, hpoll, -, rfl⟩ | ⟨hpoll, -⟩⟩ := step_next.1 h
  · simp [hpoll, service_nmiPending, service_irqPending]
  · rw [step_of_poll_none hrunning hpoll] at h
    obtain ⟨hnmi, hirq⟩ := runInstruction_latches h
    simp [hpoll, hnmi, hirq]

/-- The value that SEI, CLI and BRK leave in I (R233, R242, R243). -/
theorem exec_mask {i : Instr} {s t : State} (h : exec i s = .next t) :
    (i.mnemonic = .SEI → t.p.i = true) ∧ (i.mnemonic = .CLI → t.p.i = false) ∧ (i.mnemonic = .BRK → t.p.i = true) := by
  cases i
  case sei | cli | brk => cases h; simp [Instr.mnemonic, Instr.descriptor]
  all_goals simp [Instr.mnemonic, Instr.descriptor]

/-- Settles O52: a service sets I; else the instruction is one that R35 lists as writing I. -/
theorem onlyTheseStepsChangeTheInterruptMask : Obligations.OnlyTheseStepsChangeTheInterruptMask := by
  intro s t h hchanged
  obtain ⟨-, ⟨k, hpoll, -, rfl⟩ | ⟨-, i, u, v, hf, -, he, rfl⟩⟩ := step_next.1 h
  · exact .inl ⟨k, hpoll, by simp⟩
  · refine .inr ⟨i, u, hf, ?_⟩
    have hwrites : Spec.writesI i := by
      by_contra hi
      exact hchanged (((exec_flagsKept he).mask hi).trans (congrArg Flags.i (fetch_readsOnly hf).p_eq))
    obtain ⟨hsei, hcli, hbrk⟩ := exec_mask he
    simp only [Spec.writesI, List.mem_cons, List.not_mem_nil, or_false] at hwrites
    rcases hwrites with hi | hi | hi | hi | hi
    · exact .inr (.inr (.inr (.inl hi)))
    · exact .inr (.inr (.inr (.inr hi)))
    · exact .inr (.inr (.inl ⟨hi, hbrk hi⟩))
    · exact .inr (.inl ⟨hi, hcli hi⟩)
    · exact .inl ⟨hi, hsei hi⟩

end Sys2Proof.Machine
end

section
/-! PROOFS. What an instruction costs (70_reset_and_hazards.md R320, R321; 40_addressing_modes.md R125). -/

namespace Sys2Proof.Machine

/-! ### The table's columns (R98, R321) -/

/-- Row by row of the table: its base cycles are the rule's, and its penalty column marks the read class in the modes that index. -/
theorem table_costs (i : Instr) : i.baseCycles = Spec.baseCost i ∧ (i.pagePenalty = true ↔ Spec.paysForCrossing i) := by
  cases i <;>
    simp [Instr.baseCycles, Instr.pagePenalty, Spec.baseCost, Spec.paysForCrossing, Spec.readClass, Spec.writeClass, Spec.rmwClass,
      Instr.mnemonic, Instr.form, Instr.descriptor, Form.mode, MemForm.mode]

/-- The base cycles leave room for the cycle of a page crossing where the penalty column has one. -/
theorem table_cost_bounds (i : Instr) :
    2 ≤ i.baseCycles ∧ i.baseCycles ≤ 7 ∧ (i.pagePenalty = true → i.baseCycles ≤ 6) ∧
      (∀ b, i.form = .rel b → i.baseCycles = 2) := by
  cases i <;> simp [Instr.baseCycles, Instr.pagePenalty, Instr.form, Instr.descriptor]

/-! ### The page-crossing and branch cycles (R125, R220) -/

theorem mode_indexes16 (m : MemForm) : m.mode ∈ [.ABSX, .ABSY, .INDY] ↔ indexes16 m = true := by
  cases m <;> simp [MemForm.mode, indexes16]

theorem mem_readClass {m : Mnemonic} : m ∈ Spec.readClass ↔ (readOp m).isSome = true := by
  cases m <;> decide

/-- The read class pays exactly for a crossing (R125). -/
theorem pageCycles_of_readOp {i : Instr} {m : MemForm} (hf : i.form = .mem m) {k : Byte → State → Result}
    (hk : readOp i.mnemonic = some k) (s : State) : Spec.pageCycles i s = s.pageCost m := by
  have hclass : i.mnemonic ∈ Spec.readClass := mem_readClass.2 (by simp [hk])
  simp only [Spec.pageCycles, hf, hclass, true_and, mode_indexes16, State.pageCost]
  cases hm : indexes16 m with
  | false => simp [cross_of_not_indexes16 s hm]
  | true =>
    rw [Resolved.cross, pageCross_eq]
    by_cases hpage : Spec.page (s.resolve m).base = Spec.page (s.resolve m).ea <;> simp [hpage]

/-- No other class does. -/
theorem pageCycles_of_not_readOp {i : Instr} (hk : readOp i.mnemonic = none) (s : State) : Spec.pageCycles i s = 0 := by
  have hclass : i.mnemonic ∉ Spec.readClass := fun h => by simp [mem_readClass, hk] at h
  unfold Spec.pageCycles
  split
  · exact if_neg fun h => hclass h.1
  · rfl

theorem pageCycles_le (i : Instr) (s : State) :
    Spec.pageCycles i s ≤ 1 ∧ (Spec.pageCycles i s ≠ 0 → Spec.paysForCrossing i) := by
  unfold Spec.pageCycles Spec.paysForCrossing
  split
  · next m hf =>
    split
    · next h => simp only [hf, Form.mode]; exact ⟨by omega, fun _ => ⟨h.1, h.2.1⟩⟩
    · simp
  · simp

theorem branchCycles_of_not_rel {i : Instr} (hf : ∀ b, i.form ≠ .rel b) (s : State) : Spec.branchCycles i s = 0 := by
  unfold Spec.branchCycles
  split
  · next b _ h => exact absurd h (hf b)
  · rfl

theorem branchCycles_le (i : Instr) (s : State) :
    Spec.branchCycles i s ≤ 2 ∧ (Spec.branchCycles i s ≠ 0 → ∃ b, i.form = .rel b) := by
  unfold Spec.branchCycles
  split
  · next b _ h => exact ⟨by split <;> omega, fun _ => ⟨b, h⟩⟩
  · simp

theorem taken_of_branchOp {m : Mnemonic} {c : Flags → Bool} (h : branchOp m = some c) (p : Flags) : Spec.taken m p = some (c p) := by
  cases m <;> cases h <;> rfl

/-- A branch costs 2 cycles and, taken, those of R220. -/
theorem branchInstr_cycles {i : Instr} {b : Byte} (hf : i.form = .rel b) {c : Flags → Bool} (hk : branchOp i.mnemonic = some c)
    {s t : State} (h : branchInstr (c s.p) b s = .next t) : t.cycles = s.cycles + 2 + Spec.branchCycles i s := by
  rw [branchInstr_next] at h
  subst h
  simp only [Spec.branchCycles, taken_of_branchOp hk, hf]
  cases c s.p with
  | false => rfl
  | true =>
    simp only [if_true, jumpTo_cycles, takenCost_eq, spec_target_eq, spec_addr_add_two, State.branchNext]
    split <;> rfl

/-! ### One instruction -/

/-- The implied instructions cost what the table says. -/
theorem implied_cycles {i : Instr} (hi : i.form = .imp) {s t : State} (h : exec i s = .next t) :
    t.cycles = s.cycles + i.baseCycles := by
  cases i <;> cases hi <;> cases h <;> simp [Instr.baseCycles, Instr.descriptor]

/-- A read-class operation does not count cycles itself. -/
theorem readOp_cycles {m : Mnemonic} {k : Byte → State → Result} (h : readOp m = some k) {v : Byte} {s t : State}
    (hk : k v s = .next t) : t.cycles = s.cycles := by
  obtain ⟨_, _, _, _, rfl⟩ := readOp_next h hk
  rfl

theorem exec_cycles {i : Instr} {s t : State} (h : exec i s = .next t) :
    t.cycles = s.cycles + i.baseCycles + Spec.pageCycles i s + Spec.branchCycles i s := by
  rcases exec_class i with ⟨b, k, hf, hk, hc, he⟩ | ⟨m, k, hf, hk, -, he⟩ | ⟨m, r, hf, hr, -, he⟩ | ⟨m, f, hf, hk, -, -, he⟩ |
    ⟨f, hf, hk, hc, he⟩ | ⟨b, c, hf, hk, hc, he⟩ | ⟨⟨w, rfl⟩ | ⟨w, rfl⟩ | ⟨w, rfl⟩⟩ | hf
  case imm =>
    rw [he] at h
    rw [branchCycles_of_not_rel (by simp [hf]), readOp_cycles (s := s.retire 2 2) hk h, hc.1]
    simp [Spec.pageCycles, hf]
  case read =>
    rw [he, readInstr_next] at h
    rw [branchCycles_of_not_rel (by simp [hf]), pageCycles_of_readOp hf hk, readOp_cycles hk h.2]
    simp [Nat.add_assoc]
  case write =>
    rw [he, writeInstr_next] at h
    obtain ⟨-, -, rfl⟩ := h
    rw [branchCycles_of_not_rel (by simp [hf]), pageCycles_of_not_readOp (readOp_modifyOp_eq_none_of_storeOp hr).1]
    simp
  case modify =>
    rw [he, rmwInstr_next] at h
    obtain ⟨-, -, rfl⟩ := h
    rw [branchCycles_of_not_rel (by simp [hf]), pageCycles_of_not_readOp (readOp_storeOp_eq_none_of_modifyOp hk).1]
    simp
  case acc =>
    rw [he, accInstr_next] at h
    rw [h, branchCycles_of_not_rel (by simp [hf]), hc]
    simp [Spec.pageCycles, hf]
  case branch =>
    rw [he] at h
    rw [branchInstr_cycles hf hk h, hc]
    simp [Spec.pageCycles, hf]
  case implied =>
    rw [branchCycles_of_not_rel (by simp [hf]), implied_cycles hf h]
    simp [Spec.pageCycles, hf]
  all_goals
    cases h
    rw [branchCycles_of_not_rel (by simp [Instr.form, Instr.descriptor]), pageCycles_of_not_readOp rfl]
    simp [Instr.baseCycles, Instr.descriptor]

/-! ### A step -/

theorem haltedBy_cycles (s : State) (f : Fault) : (s.haltedBy f).cycles = s.cycles := by
  unfold State.haltedBy
  split
  · rfl
  · split <;> rfl

/-- Settles O54: the table's columns, the cost of each class, and the fixed costs of a service and a fault. -/
theorem cycleCostIsExact : Obligations.CycleCostIsExact := by
  refine ⟨table_costs, fun i s t h => ?instruction, fun s t k hrunning hpoll h => ?service, fun s f h => ?fault⟩
  case instruction => rw [← (table_costs i).1]; exact exec_cycles h
  case service =>
    obtain ⟨-, ⟨j, -, -, rfl⟩ | ⟨hnone, -⟩⟩ := step_next.1 h
    · exact service_cycles s j
    · cases hpoll.symm.trans hnone
  case fault => rw [advance_of_fault h, haltedBy_cycles]

/-- An instruction costs 2 to 7 cycles (R321). -/
theorem exec_cycles_bounds {i : Instr} {s t : State} (h : exec i s = .next t) : s.cycles + 2 ≤ t.cycles ∧ t.cycles ≤ s.cycles + 7 := by
  obtain ⟨hmin, hmax, hpenalty, hrel⟩ := table_cost_bounds i
  obtain ⟨hpage, hpays⟩ := pageCycles_le i s
  obtain ⟨hbranch, htaken⟩ := branchCycles_le i s
  rw [exec_cycles h]
  by_cases hb : Spec.branchCycles i s = 0
  · by_cases hp : Spec.pageCycles i s = 0
    · omega
    · have := hpenalty ((table_costs i).2.2 (hpays hp))
      omega
  · obtain ⟨b, hf⟩ := htaken hb
    have := hrel b hf
    omega

/-- Settles O55: a service costs 7, and fetching and committing an instruction count nothing beside it. -/
theorem everyStepCostsTwoToSevenCycles : Obligations.EveryStepCostsTwoToSevenCycles := by
  intro s t h
  obtain ⟨-, ⟨k, -, -, rfl⟩ | ⟨-, i, u, v, hf, -, he, rfl⟩⟩ := step_next.1 h
  · rw [service_cycles]
    omega
  · rw [commit_cycles, ← (fetch_readsOnly hf).cycles_eq]
    exact exec_cycles_bounds he

end Sys2Proof.Machine
end

section
/-! PROOFS. When an instruction does not complete (60_exceptions.md R281, R283; 20_memory.md R67): the one fault, and that the defaults
leave no reason to stop. -/

namespace Sys2Proof.Machine

/-! ### The fault of each access class -/

/-- Only a write to the port, under a non-default map, is invalid (R67). -/
theorem bankWriteInvalid_true {s : State} {a : Addr} {v : Byte} (h : s.bankWriteInvalid a v = true) :
    s.cfg.busMap ≠ .c64 ∧ (a = 0x0000#16 ∨ a = 0x0001#16) := by
  refine ⟨fun hc => ?_, ?_⟩
  · rw [bankWriteInvalid_c64 hc] at h
    cases h
  · by_contra ha
    rw [not_or] at ha
    unfold State.bankWriteInvalid at h
    simp only [if_neg ha.1, if_neg ha.2] at h
    split at h <;> cases h

theorem rmwInvalid_true {s : State} {ea : Addr} {v v' : Byte} (h : s.rmwInvalid ea v v' = true) :
    s.cfg.busMap ≠ .c64 ∧ (ea = 0x0000#16 ∨ ea = 0x0001#16) := by
  unfold State.rmwInvalid at h
  split at h
  · exact bankWriteInvalid_true h
  · rw [Bool.or_eq_true] at h
    rcases h with h | h
    · exact bankWriteInvalid_true h
    · exact bankWriteInvalid_true (s := s.memWrite ea v) h

theorem writeInstr_fault {op : Byte} {m : MemForm} {base : Nat} {v : Byte} {s : State} {f : Fault} :
    writeInstr op m base v s = .fault f ↔ s.pointerRefused m = none ∧
      (s.writeDummy m (s.resolve m)).bankWriteInvalid (s.resolve m).ea v = true ∧ f = .invalidBankConfig s.pc op := by
  unfold writeInstr
  split
  · simp_all
  · next hp =>
    simp only
    split
    · next hi => simp [hp, hi, eq_comm]
    · next hi => simp [hi]

theorem rmwInstr_fault {op : Byte} {m : MemForm} {base : Nat} {f : Byte → Flags → Byte × Flags} {s : State} {e : Fault} :
    rmwInstr op m base f s = .fault e ↔ s.pointerRefused m = none ∧
      (s.afterRmwRead m).rmwInvalid (s.resolve m).ea (s.rmwByte m) (f (s.rmwByte m) s.p).1 = true ∧
      e = .invalidBankConfig s.pc op := by
  unfold rmwInstr
  split
  · simp_all
  · next hp =>
    simp only
    split
    · next hi => simp [hp, hi, eq_comm]
    · next hi => simp [hi]

/-- No operation of the read class faults. -/
theorem readOp_ne_fault {m : Mnemonic} {k : Byte → State → Result} (h : readOp m = some k) (v : Byte) (s : State) (f : Fault) :
    k v s ≠ .fault f := by
  intro hk
  cases m <;> cases h
  case ADC => unfold opAdc at hk; split at hk <;> cases hk
  case SBC => unfold opSbc at hk; split at hk <;> cases hk
  all_goals cases hk

/-- An instruction faults only by an invalid write to the port (R281). -/
theorem exec_fault {i : Instr} {s : State} {f : Fault} (h : exec i s = .fault f) :
    f = .invalidBankConfig s.pc i.opcode ∧ s.cfg.busMap ≠ .c64 ∧
      ∃ m, i.form = .mem m ∧ ((s.resolve m).ea = 0x0000#16 ∨ (s.resolve m).ea = 0x0001#16) := by
  rcases exec_class i with ⟨b, k, hf, hk, -, he⟩ | ⟨m, k, hf, hk, -, he⟩ | ⟨m, r, hf, -, -, he⟩ | ⟨m, g, hf, -, -, -, he⟩ |
    ⟨g, hf, -, -, he⟩ | ⟨b, c, hf, -, -, he⟩ | ⟨⟨w, rfl⟩ | ⟨w, rfl⟩ | ⟨w, rfl⟩⟩ | hf
  case imm => rw [he] at h; exact absurd h (readOp_ne_fault hk b _ f)
  case read =>
    rw [he] at h
    unfold readInstr at h
    split at h
    · cases h
    · exact absurd h (readOp_ne_fault hk _ _ f)
  case write =>
    rw [he, writeInstr_fault] at h
    obtain ⟨-, hinvalid, rfl⟩ := h
    have hport := bankWriteInvalid_true hinvalid
    rw [writeDummy_cfg] at hport
    exact ⟨rfl, hport.1, m, hf, hport.2⟩
  case modify =>
    rw [he, rmwInstr_fault] at h
    obtain ⟨-, hinvalid, rfl⟩ := h
    have hport := rmwInvalid_true hinvalid
    rw [afterRmwRead_cfg] at hport
    exact ⟨rfl, hport.1, m, hf, hport.2⟩
  case acc => rw [he] at h; cases h
  case branch => rw [he] at h; unfold branchInstr at h; split at h <;> cases h
  case implied => cases i <;> cases hf <;> cases h
  all_goals cases h

/-- Settles O26: the fault of the two classes that store, its halted machine, and that there is no other fault. -/
theorem invalidBankConfigurationFaults : Obligations.InvalidBankConfigurationFaults := by
  refine ⟨fun i m s v hm hv hpointer hinvalid => ?store, fun i m s r hm hr hinvalid => ?modify, fun s a op hrunning h => ?halts,
    fun i s f => exec_fault⟩
  case store =>
    rw [exec_of_storedRegister hm hv]
    exact writeInstr_fault.2 ⟨hpointer, hinvalid, rfl⟩
  case modify =>
    obtain ⟨f, hf, rfl⟩ := modifyOp_of_spec_modify hr
    obtain ⟨hpointer, he⟩ := exec_of_modifyOp_mem hm hf s
    rw [he]
    exact rmwInstr_fault.2 ⟨hpointer, hinvalid, rfl⟩
  case halts =>
    rw [advance_of_fault h, State.haltedBy, hrunning]

/-! ### Completion under the defaults (R8, R283) -/

/-- `NMOS_EXACT` refuses no byte (R176). -/
theorem readOp_completes {m : Mnemonic} {k : Byte → State → Result} (h : readOp m = some k) (v : Byte) {s : State}
    (hs : s.cfg.decimal = .nmosExact) : ∃ t, k v s = .next t := by
  have hb : s.bcdRefused v = false := by simp [State.bcdRefused, hs]
  cases m <;> cases h
  case ADC => exact ⟨_, opAdc_next.2 ⟨hb, rfl⟩⟩
  case SBC => exact ⟨_, opSbc_next.2 ⟨hb, rfl⟩⟩
  all_goals exact ⟨_, rfl⟩

/-- Settles O30: by access class, no pointer, no byte and no port write is stopped under the defaults. -/
theorem everyInstructionCompletesUnderTheDefaults : Obligations.EveryInstructionCompletesUnderTheDefaults := by
  rintro i s hmap ⟨hdecimal, hlogical⟩
  rcases exec_class i with ⟨b, k, -, hk, -, he⟩ | ⟨m, k, -, hk, -, he⟩ | ⟨m, r, -, -, -, he⟩ | ⟨m, f, -, -, -, -, he⟩ |
    ⟨f, -, -, -, he⟩ | ⟨b, c, -, -, -, he⟩ | ⟨⟨w, rfl⟩ | ⟨w, rfl⟩ | ⟨w, rfl⟩⟩ | hf
  case imm => rw [he]; exact readOp_completes hk b (s := s.retire 2 2) hdecimal
  case read =>
    rw [he, readInstr_of_allowed (pointerRefused_logical hlogical m)]
    exact readOp_completes hk _ (by simp [hdecimal])
  case write =>
    rw [he]
    exact ⟨_, writeInstr_next.2 ⟨pointerRefused_logical hlogical m, bankWriteInvalid_c64 (by simp [hmap]) _ _, rfl⟩⟩
  case modify =>
    rw [he]
    exact ⟨_, rmwInstr_next.2 ⟨pointerRefused_logical hlogical m, rmwInvalid_c64 (by simp [hmap]) _ _ _, rfl⟩⟩
  case acc => rw [he]; exact ⟨_, rfl⟩
  case branch => rw [he]; exact ⟨_, branchInstr_next.2 rfl⟩
  case implied => cases i <;> cases hf <;> exact ⟨_, rfl⟩
  all_goals exact ⟨_, rfl⟩

end Sys2Proof.Machine
end

section
/-! PROOFS. No instruction but ADC and SBC depends on D (10_state.md R34): what an instruction is made of commutes with setting D. -/

namespace Sys2Proof.Machine

open Spec (withD resultWithD)

/-! ### Reads and writes -/

theorem afterRead_withD (b : Bool) (s : State) (a : Addr) : (withD b s).afterRead a = withD b (s.afterRead a) := rfl

theorem resolve_withD (b : Bool) (s : State) (m : MemForm) :
    (withD b s).resolve m = { s.resolve m with st := withD b (s.resolve m).st } := by
  cases m <;> rfl

theorem operandState_withD (b : Bool) (s : State) (m : MemForm) : (withD b s).operandState m = withD b (s.operandState m) := by
  have hcfg : (withD b s).cfg = s.cfg := rfl
  have hcross : ({ s.resolve m with st := withD b (s.resolve m).st } : Resolved).cross = (s.resolve m).cross := rfl
  rw [State.operandState, State.operandState, resolve_withD]
  unfold State.readDummy
  rw [hcfg, hcross]
  cases s.cfg.busFidelity <;> cases (s.resolve m).cross <;> rfl

theorem writeDummy_withD (b : Bool) (s : State) (m : MemForm) :
    (withD b s).writeDummy m ((withD b s).resolve m) = withD b (s.writeDummy m (s.resolve m)) := by
  have hcfg : (withD b s).cfg = s.cfg := rfl
  rw [resolve_withD]
  unfold State.writeDummy
  rw [hcfg]
  cases s.cfg.busFidelity <;> cases indexes16 m <;> rfl

theorem rmwWrite_withD (b : Bool) (s : State) (ea : Addr) (v v' : Byte) :
    (withD b s).rmwWrite ea v v' = withD b (s.rmwWrite ea v v') := by
  have hcfg : (withD b s).cfg = s.cfg := rfl
  simp only [State.rmwWrite, hcfg]
  split <;> rfl

/-- Whether a write is let through does not depend on D. -/
theorem rmwInvalid_withD (b : Bool) (s : State) (ea : Addr) (v v' : Byte) : (withD b s).rmwInvalid ea v v' = s.rmwInvalid ea v v' := rfl

/-! ### The operations of each class -/

theorem readOp_withD {m : Mnemonic} {k : Byte → State → Result} (h : readOp m = some k) (hm : m ≠ .ADC ∧ m ≠ .SBC) (b : Bool) (v : Byte)
    (s : State) : k v (withD b s) = resultWithD b (k v s) := by
  cases m <;> cases h
  case ADC => exact absurd rfl hm.1
  case SBC => exact absurd rfl hm.2
  all_goals rfl

theorem storeOp_withD {m : Mnemonic} {r : State → Byte} (h : storeOp m = some r) (b : Bool) (s : State) : r (withD b s) = r s := by
  cases m <;> cases h <;> rfl

theorem modifyOp_withD {m : Mnemonic} {f : Byte → Flags → Byte × Flags} (h : modifyOp m = some f) (b : Bool) (v : Byte) (p : Flags) :
    f v { p with d := b } = ((f v p).1, { (f v p).2 with d := b }) := by
  cases m <;> cases h <;> rfl

theorem branchOp_withD {m : Mnemonic} {c : Flags → Bool} (h : branchOp m = some c) (b : Bool) (p : Flags) : c { p with d := b } = c p := by
  cases m <;> cases h <;> rfl

/-! ### The shared forms -/

theorem readInstr_withD {k : Byte → State → Result} {b : Bool} (hk : ∀ v s, k v (withD b s) = resultWithD b (k v s)) (m : MemForm)
    (base : Nat) (s : State) : readInstr m base k (withD b s) = resultWithD b (readInstr m base k s) := by
  have hpointer : (withD b s).pointerRefused m = s.pointerRefused m := rfl
  have hbyte : (withD b s).operandByte m = s.operandByte m := by
    rw [State.operandByte, operandState_withD, resolve_withD]; rfl
  have hafter : (withD b s).afterOperand m = withD b (s.afterOperand m) := by
    rw [State.afterOperand, operandState_withD, resolve_withD]; rfl
  have hcost : (withD b s).pageCost m = s.pageCost m := by rw [State.pageCost, resolve_withD]; rfl
  unfold readInstr
  rw [hpointer, hbyte, hafter, hcost]
  split
  · rfl
  · exact hk _ ((s.afterOperand m).retire m.mode.length (base + s.pageCost m))

theorem writeInstr_withD (op : Byte) (m : MemForm) (base : Nat) (v : Byte) (b : Bool) (s : State) :
    writeInstr op m base v (withD b s) = resultWithD b (writeInstr op m base v s) := by
  have hpointer : (withD b s).pointerRefused m = s.pointerRefused m := rfl
  have hea : ((withD b s).resolve m).ea = (s.resolve m).ea := by rw [resolve_withD]
  have hinvalid (t : State) (a : Addr) : (withD b t).bankWriteInvalid a v = t.bankWriteInvalid a v := rfl
  unfold writeInstr
  simp only [hpointer, writeDummy_withD, hea, hinvalid]
  split
  · rfl
  · split <;> rfl

theorem rmwInstr_withD {f : Byte → Flags → Byte × Flags} {b : Bool}
    (hf : ∀ v p, f v { p with d := b } = ((f v p).1, { (f v p).2 with d := b })) (op : Byte) (m : MemForm) (base : Nat) (s : State) :
    rmwInstr op m base f (withD b s) = resultWithD b (rmwInstr op m base f s) := by
  have hpointer : (withD b s).pointerRefused m = s.pointerRefused m := rfl
  have hstate : (withD b s).rmwState m = withD b (s.rmwState m) := writeDummy_withD b s m
  have hea : ((withD b s).resolve m).ea = (s.resolve m).ea := by rw [resolve_withD]
  have hbyte : (withD b s).rmwByte m = s.rmwByte m := by rw [State.rmwByte, hstate, hea]; rfl
  have hafter : (withD b s).afterRmwRead m = withD b (s.afterRmwRead m) := by rw [State.afterRmwRead, hstate, hea]; rfl
  have hp (v : Byte) : f v (withD b s).p = ((f v s.p).1, { (f v s.p).2 with d := b }) := hf v s.p
  unfold rmwInstr
  simp only [hpointer, hea, hbyte, hafter, hp, rmwInvalid_withD, rmwWrite_withD]
  split
  · rfl
  · split <;> rfl

/-- The implied instructions, but those that copy D to the stack or write it. -/
theorem implied_withD {i : Instr} (hi : i.form = .imp) (hm : i.mnemonic ∉ [.PHP, .BRK, .CLD, .SED, .PLP, .RTI]) (b : Bool) (s : State) :
    exec i (withD b s) = resultWithD b (exec i s) := by
  cases i <;> cases hi
  case php | brk | cld | sed | plp | rti => exact absurd (by decide) hm
  all_goals rfl

/-- Settles O53: by access class, every operation of the form commutes with setting D. -/
theorem onlyAddAndSubtractDependOnD : Obligations.OnlyAddAndSubtractDependOnD := by
  intro i s b hm
  have hadd : i.mnemonic ≠ .ADC ∧ i.mnemonic ≠ .SBC := by
    simp only [List.mem_cons, not_or] at hm
    exact ⟨hm.1, hm.2.1⟩
  have hexempt : [.PHP, .BRK, .CLD, .SED, .PLP, .RTI] ⊆ [Mnemonic.ADC, .SBC, .PHP, .BRK, .CLD, .SED, .PLP, .RTI] := by decide
  rcases exec_class i with ⟨v, k, -, hk, -, he⟩ | ⟨m, k, -, hk, -, he⟩ | ⟨m, r, -, hr, -, he⟩ | ⟨m, f, -, hk, -, -, he⟩ |
    ⟨f, -, hk, -, he⟩ | ⟨v, c, -, hk, -, he⟩ | ⟨⟨w, rfl⟩ | ⟨w, rfl⟩ | ⟨w, rfl⟩⟩ | hf
  case imm =>
    rw [he, he]
    exact readOp_withD hk hadd b v (s.retire 2 2)
  case read => rw [he, he, readInstr_withD (readOp_withD hk hadd b)]
  case write => rw [he, he, storeOp_withD hr, writeInstr_withD]
  case modify => rw [he, he, rmwInstr_withD (modifyOp_withD hk b)]
  case acc =>
    have hf : f (withD b s).a (withD b s).p = ((f s.a s.p).1, { (f s.a s.p).2 with d := b }) := modifyOp_withD hk b s.a s.p
    rw [he, he, accInstr, hf]
    rfl
  case branch =>
    have hc : c (withD b s).p = c s.p := branchOp_withD hk b s.p
    rw [he, he, hc, branchInstr, branchInstr]
    split <;> rfl
  case implied => exact implied_withD hf (fun h => hm (hexempt h)) b s
  all_goals rfl

end Sys2Proof.Machine
end

section
/-! PROOFS. What is pushed is what is pulled (60_exceptions.md R267, R268; 45_control_transfer.md R230, R231), and how far pushes reach
(10_state.md R25; 20_memory.md R56). -/

namespace Sys2Proof.Machine

/-! ### The stack slots of an exception entry (R268) -/

/-- Two below S, modulo 256. -/
theorem sub_one_sub_one_toNat (b : Byte) : (b - 1#8 - 1#8).toNat = (b.toNat + 254) % 256 := by
  rw [sub_one_toNat, sub_one_toNat]
  omega

/-- Settles O17: the entry's three bytes by their addresses, and the registers of a service. -/
theorem serviceSavesExactlyThreeBytes : Obligations.ServiceSavesExactlyThreeBytes := by
  intro s k hw hs
  have hsp := s.sp.isLt
  have hread (b : Nat) : (s.service k).ram.read b =
      if b = 256 + (s.sp.toNat + 254) % 256 then Spec.pack s.p false
      else if b = 256 + (s.sp.toNat + 255) % 256 then Spec.byte s.pc.toNat
      else if b = 256 + s.sp.toNat then Spec.byte (s.pc.toNat / 256) else s.ram.read b := by
    rw [service_ram, takeException_ram_read hw hs, stackAddr_toNat, stackAddr_toNat, stackAddr_toNat, sub_one_sub_one_toNat,
      sub_one_toNat, pack_eq_spec, spec_byte_eq_loByte, spec_byte_eq_hiByte]
  refine ⟨?high, ?low, ?flags, fun b h0 h1 h2 => ?other, ?sp, service_a s k, service_x s k, service_y s k, service_p s k⟩
  case high => rw [hread, if_neg (by omega), if_neg (by omega), if_pos rfl]
  case low => rw [hread, if_neg (by omega), if_pos rfl]
  case flags => rw [hread, if_pos rfl]
  case other => rw [hread, if_neg h2, if_neg h1, if_neg h0]
  case sp =>
    rw [service_sp, BitVec.sub_sub, BitVec.sub_sub]
    exact BitVec.eq_of_toNat_eq (by simp [Spec.byte, BitVec.toNat_sub]; omega)

/-! ### Pulling from a stack page that is RAM (R57) -/

/-- The word that two pulls read, low byte first. -/
theorem pullWord_of_ram {s : State} (h : ∀ v, s.select (stackAddr v) .read = .ram) :
    s.pullWord.1 = wordOf (s.ram.read (stackAddr (s.sp + 1#8 + 1#8)).toNat) (s.ram.read (stackAddr (s.sp + 1#8)).toNat) := by
  have hsecond : s.afterPull.pullByte = s.ram.read (stackAddr (s.sp + 1#8 + 1#8)).toNat := pullByte_of_ram (s := s.afterPull) (h _)
  simp only [State.pullWord, hsecond, pullByte_of_ram (h _)]

/-- The PC that a return from an exception pulls, above P (R232). -/
theorem returnFromException_pc_of_ram {s : State} (h : ∀ v, s.select (stackAddr v) .read = .ram) :
    s.returnFromException.pc =
      wordOf (s.ram.read (stackAddr (s.sp + 1#8 + 1#8 + 1#8)).toNat) (s.ram.read (stackAddr (s.sp + 1#8 + 1#8)).toNat) :=
  pullWord_of_ram (s := { s.afterPull with p := unpackFlags s.pullByte }) h

/-- S after one push more is S before one pull more. -/
theorem sub_one_add_one (b : Byte) : b - 1#8 + 1#8 = b := BitVec.sub_add_cancel b 1#8

/-- Settles O18: RTI pulls the three bytes that the service pushed, in the reverse order. -/
theorem rtiResumesExactlyWhatWasInterrupted : Obligations.RtiResumesExactlyWhatWasInterrupted := by
  intro s k hw hs
  have hwrite : ∀ v, s.select (stackAddr v) .write = .ram := fun v => (hs v).1
  have hread : ∀ v, (s.service k).select (stackAddr v) .read = .ram := fun v => (service_select s k _ _).trans (hs v).2
  have hslots := takeException_ram_read hw hwrite s.pc false k.vector
  have h1 : (stackAddr s.sp).toNat ≠ (stackAddr (s.sp - 1#8)).toNat := by rw [stackAddr_toNat, stackAddr_toNat]; bv_omega
  have h2 : (stackAddr s.sp).toNat ≠ (stackAddr (s.sp - 1#8 - 1#8)).toNat := by rw [stackAddr_toNat, stackAddr_toNat]; bv_omega
  have h3 : (stackAddr (s.sp - 1#8)).toNat ≠ (stackAddr (s.sp - 1#8 - 1#8)).toNat := by
    rw [stackAddr_toNat, stackAddr_toNat]; bv_omega
  refine ⟨_, rfl, ?pc, ?flags, ?sp, ?a, ?x, ?y, rfl⟩
  case pc =>
    refine (returnFromException_pc_of_ram hread).trans ?_
    rw [service_sp, sub_one_add_one, sub_one_add_one, sub_one_add_one, service_ram, hslots, hslots, if_neg h2, if_neg h1, if_pos rfl,
      if_neg h3, if_pos rfl, wordOf_hiByte_loByte]
  case flags =>
    refine (returnFromException_p (s.service k)).trans ?_
    rw [pullByte_of_ram (hread _), service_sp, sub_one_add_one, service_ram, hslots, if_pos rfl, unpackFlags_pack]
  case sp =>
    refine (returnFromException_sp (s.service k)).trans ?_
    rw [service_sp, sub_one_add_one, sub_one_add_one, sub_one_add_one]
  case a => exact (returnFromException_a (s.service k)).trans (service_a s k)
  case x => exact (returnFromException_x (s.service k)).trans (service_x s k)
  case y => exact (returnFromException_y (s.service k)).trans (service_y s k)

/-- After JSR, two pulls read the word it pushed (R230). -/
theorem pullWord_after_jsr {s : State} (hw : s.ram.wf = true)
    (hs : ∀ v, s.select (stackAddr v) .write = .ram ∧ s.select (stackAddr v) .read = .ram) (ret w : Addr) :
    ((s.pushWord ret).jumpTo w 6).pullWord.1 = ret := by
  have hread : ∀ v, ((s.pushWord ret).jumpTo w 6).select (stackAddr v) .read = .ram := fun v =>
    (select_congr (by simp) (by simp) (by simp) _ _).trans (hs v).2
  have hslots := pushWord_ram_read hw (fun v => (hs v).1) ret
  have hne : (stackAddr s.sp).toNat ≠ (stackAddr (s.sp - 1#8)).toNat := by rw [stackAddr_toNat, stackAddr_toNat]; bv_omega
  rw [pullWord_of_ram hread, jumpTo_sp, pushWord_sp, sub_one_add_one, sub_one_add_one, jumpTo_ram, hslots, hslots, if_neg hne,
    if_pos rfl, if_pos rfl, wordOf_hiByte_loByte]

/-- Settles O19: RTS pulls the word that JSR pushed, the address of JSR's last byte, and adds 1. -/
theorem rtsReturnsAfterTheJsr : Obligations.RtsReturnsAfterTheJsr := by
  intro s w hw hs
  have hpc : Spec.addr (s.pc.toNat + 3) = s.pc + 2#16 + 1#16 := by rw [BitVec.add_assoc]; exact spec_addr_add s.pc 3#16
  refine ⟨_, _, rfl, jumpTo_pc _ w 6, rfl, ?_⟩
  rw [jumpTo_pc, pullWord_after_jsr hw hs, hpc]
  simp

/-! ### Pushes (R25, R56) -/

theorem pushes_sp (n : Nat) (v : Byte) (s : State) : (Spec.pushes n v s).sp = Spec.byte (s.sp.toNat + 255 * n) := by
  induction n generalizing s with
  | zero => exact (spec_byte_add s.sp 0#8).trans (BitVec.add_zero s.sp) |>.symm
  | succ n ih =>
    rw [Spec.pushes, ih, push_sp, sub_one_toNat]
    exact BitVec.eq_of_toNat_eq (by simp [Spec.byte]; omega)

/-- A push writes inside page 1. -/
theorem pushes_ram_read (n : Nat) (v : Byte) (s : State) {b : Nat} (hb : b < 256 ∨ 512 ≤ b) :
    (Spec.pushes n v s).ram.read b = s.ram.read b := by
  induction n generalizing s with
  | zero => rfl
  | succ n ih =>
    have hother : b ≠ (stackAddr s.sp).toNat := by
      rw [stackAddr_toNat]
      have := s.sp.isLt
      omega
    rw [Spec.pushes, ih, push_ram, ramAfterWrite_read_other s v hother]

/-- Settles O25: S by induction on the pushes, 256 of them as a multiple of 256, and each push's address in page 1. -/
theorem pushesWrapWithinPageOne : Obligations.PushesWrapWithinPageOne := by
  refine fun n v s => ⟨pushes_sp n v s, ?_, fun b hb => pushes_ram_read n v s hb⟩
  rw [pushes_sp]
  exact BitVec.eq_of_toNat_eq (by simp [Spec.byte]; omega)

end Sys2Proof.Machine
end

section
/-! PROOFS. A write and the reads after it (20_memory.md R63, R75). -/

namespace Sys2Proof.Machine

theorem select_not_port {s : State} {a : Addr} {d : Dir} (h : s.select a d ≠ .port) : ¬ a.toNat < 2 :=
  fun hlt => h (select_port_of_lt s d hlt)

/-- What a write off the port leaves of a read of RAM or a ROM elsewhere, and of a ROM at the same address. -/
theorem memWrite_peek_other {s : State} {a b : Addr} (v : Byte) (ha : ¬ a.toNat < 2)
    (hb : b ≠ a ∧ s.select b .read = .ram ∨ s.select b .read = .basic ∨ s.select b .read = .kernal ∨ s.select b .read = .char) :
    (s.memWrite a v).peek b = s.peek b := by
  have hselect := memWrite_select (s := s) v ha b .read
  rcases hb with ⟨hne, hram⟩ | hrom | hrom | hrom
  · rw [peek_of_ram (hselect.trans hram), peek_of_ram hram, memWrite_ram,
      ramAfterWrite_read_other s v (fun e => hne (BitVec.eq_of_toNat_eq e))]
  all_goals simp only [State.peek, hselect, hrom, memWrite_cfg]

/-- Settles O21: under a ROM the write selects the RAM beneath, and the map, the image and every other RAM byte stay. -/
theorem writeUnderRomReachesTheRamBeneath : Obligations.WriteUnderRomReachesTheRamBeneath := by
  intro s a v hw hrom
  have hisRom : (s.select a .read).isRom = true := by rcases hrom with h | h | h <;> rw [h] <;> rfl
  have hport : ¬ a.toNat < 2 := select_not_port (d := .read) fun h => by rw [h] at hisRom; cases hisRom
  have hwritten : (s.memWrite a v).ram.read a.toNat = v := by
    rw [memWrite_ram, ramAfterWrite_of_ram (select_write_under_rom hisRom), Memory.read_write_same hw]
  refine ⟨memWrite_peek_other v hport (.inr hrom), rfl, hwritten, fun t hram hread => ?later, fun b hb => ?other⟩
  case later => rw [peek_of_ram hread, hram, hwritten]
  case other => exact ramAfterWrite_read_other s v fun e => hb (BitVec.eq_of_toNat_eq e)

/-- Settles O24: the written RAM byte answers, and what else reads RAM or a ROM reads as before. -/
theorem readReturnsTheMostRecentWrite : Obligations.ReadReturnsTheMostRecentWrite := by
  intro s a b v hw hwrite hread
  have hport : ¬ a.toNat < 2 := select_not_port (d := .write) (by rw [hwrite]; decide)
  refine ⟨?same, fun hne hsource => memWrite_peek_other v hport (hsource.imp_left fun h => ⟨hne, h⟩)⟩
  rw [peek_of_ram ((memWrite_select v hport a .read).trans hread), memWrite_ram, ramAfterWrite_of_ram hwrite,
    Memory.read_write_same hw]

end Sys2Proof.Machine
end

section
/-! PROOFS. Building and resetting a machine (00_scope.md R9; 10_state.md R46; 70_reset_and_hazards.md R300, R310). -/

namespace Sys2Proof

/-! ### The configuration check (R9) -/

theorem checkClock_ok {given : String} {c : Clock} (h : checkClock given = .ok c) : given = "PAL" ∨ given = "NTSC" := by
  unfold checkClock at h
  split at h
  · exact .inl ‹_›
  · split at h
    · exact .inr ‹_›
    · cases h

theorem checkClock_completes {given : String} (h : given = "PAL" ∨ given = "NTSC") : ∃ c, checkClock given = .ok c := by
  rcases h with rfl | rfl <;> exact ⟨_, rfl⟩

/-- An image passes exactly when it is present and of its size, and is then the memory of its bytes. -/
theorem checkRom_ok {rom : RomName} {image : Option (List Byte)} {m : Memory} :
    checkRom rom image = .ok m ↔ ∃ bytes, image = some bytes ∧ bytes.length = rom.size ∧ m = Memory.ofBytes 0 bytes := by
  unfold checkRom
  cases image with
  | none => simp
  | some bytes => by_cases h : bytes.length = rom.size <;> simp [h, eq_comm]

/-- The check passes exactly when each part does, and then builds the configuration from the parts. -/
theorem check_ok {r : RawConfig} {c : Config} (h : r.check = .ok c) :
    (∃ k, checkClock r.clock = .ok k) ∧ checkRom .basic r.basic = .ok c.romBasic ∧ checkRom .kernal r.kernal = .ok c.romKernal ∧
      checkRom .char r.char = .ok c.romChar := by
  unfold RawConfig.check at h
  split at h
  · cases h
  · next k hk =>
    split at h
    · cases h
    · next hb =>
      split at h
      · cases h
      · next hn =>
        split at h
        · cases h
        · next hc => cases h; exact ⟨⟨k, hk⟩, hb, hn, hc⟩

theorem check_completes {r : RawConfig} {k : Clock} {b n g : Memory} (hk : checkClock r.clock = .ok k)
    (hb : checkRom .basic r.basic = .ok b) (hn : checkRom .kernal r.kernal = .ok n) (hg : checkRom .char r.char = .ok g) :
    ∃ c, r.check = .ok c := by
  simp [RawConfig.check, hk, hb, hn, hg]

/-- An image of `n` bytes is canonical and within its size. -/
theorem image_wf {n : Nat} {bytes : List Byte} (h : bytes.length = n) :
    (Memory.ofBytes 0 bytes).wf = true ∧ (Memory.ofBytes 0 bytes).within n = true := by
  have hwithin := Memory.within_ofBytes 0 bytes
  rw [Nat.zero_add, h] at hwithin
  exact ⟨Memory.wfFrom_ofBytes 0 bytes, hwithin⟩

/-- A configuration that passes has well-formed images. -/
theorem check_wf {r : RawConfig} {c : Config} (h : r.check = .ok c) : c.wf = true := by
  obtain ⟨-, hb, hn, hg⟩ := check_ok h
  obtain ⟨b, -, hblen, hbm⟩ := checkRom_ok.1 hb
  obtain ⟨n, -, hnlen, hnm⟩ := checkRom_ok.1 hn
  obtain ⟨g, -, hglen, hgm⟩ := checkRom_ok.1 hg
  have hbwf := image_wf (show b.length = 8192 from hblen)
  have hnwf := image_wf (show n.length = 8192 from hnlen)
  have hgwf := image_wf (show g.length = 4096 from hglen)
  simp [Config.wf, hbm, hnm, hgm, hbwf, hnwf, hgwf]

/-- The image that passed reads as the bytes that were handed over. -/
theorem checkRom_read {rom : RomName} {image : Option (List Byte)} {m : Memory} (h : checkRom rom image = .ok m) {bytes : List Byte}
    (hi : image = some bytes) (j : Nat) (hj : j < bytes.length) : m.read j = bytes[j] := by
  obtain ⟨bytes', hi', -, rfl⟩ := checkRom_ok.1 h
  cases hi.symm.trans hi'
  simpa using Memory.read_ofBytes 0 bytes j hj

namespace Machine

/-- A machine is built exactly when the check passes; it has the checked configuration. -/
theorem boot_ok {raw : RawConfig} {d : ResetDraws} {data : Byte} {ram : Memory} {s : State} :
    boot raw d data ram = .ok s ↔ ∃ c, raw.check = .ok c ∧ s = State.powerOn c d data ram := by
  unfold boot
  cases raw.check <;> simp [eq_comm]

/-- Settles O5: a machine is built exactly when every part of the check passes, from the images that were handed over. -/
theorem configurationIsCheckedOnceBeforeReset : Obligations.ConfigurationIsCheckedOnceBeforeReset := by
  refine fun raw d data ram => ⟨⟨fun ⟨s, hs⟩ => ?accepted, fun ⟨hclock, b, k, g, hb, hk, hg, hblen, hklen, hglen⟩ => ?builds⟩,
    fun s b k g hs hb hk hg => ?images⟩
  case accepted =>
    obtain ⟨c, hc, -⟩ := boot_ok.1 hs
    obtain ⟨⟨_, hclock⟩, hb, hk, hg⟩ := check_ok hc
    obtain ⟨b, hb, hblen, -⟩ := checkRom_ok.1 hb
    obtain ⟨k, hk, hklen, -⟩ := checkRom_ok.1 hk
    obtain ⟨g, hg, hglen, -⟩ := checkRom_ok.1 hg
    exact ⟨checkClock_ok hclock, b, k, g, hb, hk, hg, hblen, hklen, hglen⟩
  case builds =>
    obtain ⟨_, hclock⟩ := checkClock_completes hclock
    obtain ⟨c, hc⟩ := check_completes hclock (checkRom_ok.2 ⟨b, hb, hblen, rfl⟩) (checkRom_ok.2 ⟨k, hk, hklen, rfl⟩)
      (checkRom_ok.2 ⟨g, hg, hglen, rfl⟩)
    exact ⟨_, boot_ok.2 ⟨c, hc, rfl⟩⟩
  case images =>
    obtain ⟨c, hc, rfl⟩ := boot_ok.1 hs
    obtain ⟨-, hbasic, hkernal, hchar⟩ := check_ok hc
    exact ⟨checkRom_read hbasic hb, checkRom_read hkernal hk, checkRom_read hchar hg, check_wf hc⟩

/-! ### Power-on (R46, R300) -/

/-- With all port bits inputs the C64 map answers the KERNAL image from 0xE000 on (R61). -/
theorem peek_kernal_of_inputs {s : State} (hmap : s.cfg.busMap = .c64) (hddr : s.portDDR = 0x00#8) {a : Addr}
    (ha : 0xE000 ≤ a.toNat) : s.peek a = s.cfg.romKernal.read (a.toNat - 0xE000) := by
  have hselect : s.select a .read = .kernal := by
    rw [select_eq_c64Select hmap (by omega), bankCfg_of_portDDR_zero hddr, (c64Select_kernal_range ha _).1]
    rfl
  simp [State.peek, hselect]

/-- The machine that power-on resets: RAM and PortDATA drawn, nothing read yet (log 18). -/
def drawnState (cfg : Config) (data : Byte) (ram : Memory) : State := { State.reset with cfg := cfg, portDATA := data, ram := ram }

theorem powerOn_eq_applyReset (cfg : Config) (d : ResetDraws) (data : Byte) (ram : Memory) :
    State.powerOn cfg d data ram = (drawnState cfg data ram).applyReset d := rfl

/-- Settles O1: power-on is a reset of the drawn machine, its vector read under `Cfg = 0b111`. -/
theorem powerOnLeavesTheResetValues : Obligations.PowerOnLeavesTheResetValues := by
  intro cfg d data ram
  rw [powerOn_eq_applyReset]
  have hreads := applyReset_readsOnly (drawnState cfg data ram) d
  have hpc := applyReset_pc (drawnState cfg data ram) d
  refine ⟨hreads.sp_eq, hreads.p_eq, hreads.a_eq, hreads.x_eq, hreads.y_eq, hreads.nmiPending_eq, hreads.irqPending_eq,
    hreads.cycles_eq, hreads.ram_eq, hreads.portDDR_eq, hreads.portDATA_eq, hreads.halted_eq, hreads.lastWasService_eq,
    hreads.iAtLastBoundary_eq, hreads.cfg_eq, bankCfg_of_portDDR_zero hreads.portDDR_eq, fun hmap => ?kernal, ?vector⟩
  case kernal =>
    have hlow := peek_kernal_of_inputs (s := (drawnState cfg data ram).resetFields d) hmap rfl (a := 0xFFFC#16) (by decide)
    have hhigh := peek_kernal_of_inputs (s := ((drawnState cfg data ram).resetFields d).afterRead 0xFFFC#16) hmap rfl
      (a := 0xFFFD#16) (by decide)
    rw [hlow, hhigh] at hpc
    exact hpc
  case vector => rintro _ rfl; exact hpc

/-- Settles O3: both have the same fields; PC is the KERNAL image's reset vector in both. -/
theorem resetIsPowerOnWithZeroDraws : Obligations.ResetIsPowerOnWithZeroDraws := rfl

/-! ### Between steps (R262, R285, R296) -/

/-- Settles O13: a halted machine answers its record whatever its latches. -/
theorem haltedMachineTakesNoStep : Obligations.HaltedMachineTakesNoStep := by
  intro s f h
  have hstep := step_of_halted h
  refine ⟨hstep, ?_, step_of_halted (s := s.boundary .raiseNmi) h, step_of_halted (s := s.boundary .raiseIrq) h⟩
  rw [advance_of_fault hstep]
  unfold State.haltedBy
  rw [h]

/-- Settles O58: event by event. -/
theorem collaboratorsLeaveTheRegisters : Obligations.CollaboratorsLeaveTheRegisters := by
  intro s e he
  cases e with
  | reset d => exact absurd rfl (he d)
  | raiseNmi | raiseIrq | busRead | pauseAndResume => simp [State.boundary]
  | busWrite a v => simpa [State.boundary] using fun hw => ramAfterWrite_wf hw a v

end Machine
end Sys2Proof
end

section
/-! PROOFS. The step of one instruction (60_exceptions.md R260; 40_addressing_modes.md R110): the fetch of its bytes, and the reads of
the program-counter address that R127 refuses. -/

namespace Sys2Proof.Machine

/-! ### The bytes of a fetch -/

theorem spec_addr_add_nat (a : Addr) (n : Nat) : Spec.addr (a.toNat + n) = a + BitVec.ofNat 16 n := by
  rw [Spec.addr, BitVec.ofNat_add, ← Spec.addr, spec_addr_toNat]

/-- The address `k` bytes after the next one. -/
theorem spec_addr_next_add (a : Addr) (k : Nat) : Spec.addr ((a + 1#16).toNat + k) = Spec.addr (a.toNat + (k + 1)) := by
  rw [spec_addr_add_nat, spec_addr_add_nat, BitVec.add_assoc, Nat.add_comm k 1, BitVec.ofNat_add]

/-- The `n` bytes from `a` on, each as it reads after those before it. -/
def State.bytesFrom : Nat → Addr → State → List Byte
  | 0, _, _ => []
  | n + 1, a, s => s.peek a :: State.bytesFrom n (a + 1#16) (s.afterRead a)

theorem bytesFrom_take {k n : Nat} (h : k ≤ n) (a : Addr) (s : State) : (s.bytesFrom n a).take k = s.bytesFrom k a := by
  induction k generalizing n a s with
  | zero => rfl
  | succ k ih =>
    obtain ⟨n, rfl⟩ : ∃ m, n = m + 1 := ⟨n - 1, by omega⟩
    rw [State.bytesFrom, State.bytesFrom, List.take_succ_cons, ih (by omega)]

theorem fetched_succ (n : Nat) (a : Addr) (s : State) : Spec.fetched (n + 1) a s = Spec.fetched n (a + 1#16) (s.afterRead a) := by
  rw [Spec.fetched, spec_addr_succ]

/-- Bytes none of which is refused are fetched one after the other (R110). -/
theorem fetchBytes_of_allowed {n : Nat} {a : Addr} {s : State} (h : ∀ k, k < n → s.fetchRefused (Spec.addr (a.toNat + k)) = false) :
    State.fetchBytes n a s = .next (s.bytesFrom n a, Spec.fetched n a s) := by
  induction n generalizing a s with
  | zero => rfl
  | succ n ih =>
    have hfirst : s.fetchRefused a = false := by simpa using h 0 (by omega)
    have hrest : ∀ k, k < n → (s.afterRead a).fetchRefused (Spec.addr ((a + 1#16).toNat + k)) = false := fun k hk => by
      rw [spec_addr_next_add]
      exact h (k + 1) (by omega)
    simp only [State.fetchBytes, hfirst, Bool.false_eq_true, if_false, ih hrest, State.bytesFrom, fetched_succ]

theorem readsOnly_fetched (n : Nat) (a : Addr) (s : State) : ReadsOnly s (Spec.fetched n a s) := by
  induction n generalizing a s with
  | zero => exact .refl s
  | succ n ih => rw [fetched_succ]; exact (readsOnly_afterRead s a).trans (ih _ _)

/-- When the three bytes at PC decode, and none that belongs to the instruction is refused, the fetch answers it. -/
theorem fetch_of_decode {s : State} {i : Instr} {rest : List Byte}
    (hallowed : ∀ k, k < i.form.mode.length → s.fetchRefused (Spec.addr (s.pc.toNat + k)) = false)
    (hd : decode (s.bytesFrom 3 s.pc) = .ok (i, rest)) : s.fetch = .next (i, Spec.fetched i.form.mode.length s.pc s) := by
  obtain ⟨sh, os, hs, hm, htake⟩ := decode_cons_ok.1 hd
  have hbytes : i.form.bytes = os := (List.cons.inj (encode_of_shapeOf hs hm)).2
  have hlength : i.form.mode.length = os.length + 1 := by rw [← Form.length_bytes, hbytes, Nat.add_comm]
  have hos : (s.afterRead s.pc).bytesFrom os.length (s.pc + 1#16) = os := by
    have hle : os.length ≤ 2 := by
      have hlen := congrArg List.length htake
      simp [State.bytesFrom] at hlen
      omega
    rw [← bytesFrom_take hle, htake, List.take_left]
  rw [hlength] at hallowed ⊢
  refine fetch_next.2 ⟨by simpa using hallowed 0 (by omega), os.length + 1, os, ?_, ?_, ?_⟩
  · rw [opcodeLength, hs, Option.map_some, hm.length_eq, Nat.add_comm]
  · rw [Nat.add_sub_cancel, fetchBytes_of_allowed, hos, fetched_succ]
    intro k hk
    rw [spec_addr_next_add]
    exact hallowed (k + 1) (by omega)
  · exact decode_cons_ok.2 ⟨sh, os, hs, hm, (List.append_nil os).symm⟩

/-! ### The dummy reads of the program-counter address (R127; log 22) -/

/-- The base's page with the low byte of another address (R127). -/
theorem spec_addr_page (v w : Addr) : Spec.addr (256 * Spec.page v + w.toNat % 256) = wordOf (hiByte v) (loByte w) := by
  rw [← spec_word_eq, Spec.word, hiByte_toNat, loByte_toNat, Spec.page]

theorem taken_eq_some_true {m : Mnemonic} {p : Flags} : Spec.taken m p = some true ↔ branchTaken m p = true := by
  cases m <;> simp [Spec.taken, branchTaken]

/-- The addresses that the rules name are the model's. -/
theorem pcReads_eq (i : Instr) (s : State) : Spec.pcReads i s = s.pcDummyReads i := by
  have hpulled : Spec.word (Spec.pull (Spec.pull s).2).1 (Spec.pull s).1 = s.pullWord.1 := by
    rw [spec_word_eq, spec_pull_eq, spec_pull_eq]
    rfl
  unfold Spec.pcReads State.pcDummyReads
  rw [spec_addr_succ]
  cases i.form with
  | imp =>
    simp only [hpulled]
    cases i.mnemonic <;> rfl
  | rel rel =>
    simp only [taken_eq_some_true, spec_addr_page, spec_addr_add_two, spec_target_eq, pageCross_eq, decide_eq_true_eq]
    rfl
  | acc | imm | mem | ind => rfl

theorem ReadsOnly.fetchRefused_eq {s t : State} (h : ReadsOnly s t) (a : Addr) : t.fetchRefused a = s.fetchRefused a := by
  obtain ⟨_, _, rfl⟩ := h
  rfl

theorem pcDummyRefused_eq {s u : State} (h : ReadsOnly s u) (i : Instr) :
    u.pcDummyRefused i = (Spec.pcReads i u).find? fun b => s.fetchRefused b := by
  rw [State.pcDummyRefused, pcReads_eq]
  congr 1
  exact funext h.fetchRefused_eq

/-! ### The step of a decoded instruction (R260) -/

theorem runInstruction_of_fetch {s u : State} {i : Instr} (h : s.fetch = .next (i, u)) :
    s.runInstruction = commitResult i s.p.i (u.execute i) := by
  simp [State.runInstruction, h]

theorem commitResult_eq_committed (i : Instr) (i0 : Bool) (r : Result) : commitResult i i0 r = Spec.committed i i0 r := by
  have hmask : isMaskOp i = decide (i.mnemonic = .CLI ∨ i.mnemonic = .SEI ∨ i.mnemonic = .PLP) := by
    rw [Bool.eq_iff_iff, decide_eq_true_iff, isMaskOp_iff]
  cases r with
  | next t => simp only [commitResult, State.commit, Spec.committed, hmask]
  | fault | refused => rfl

/-- Settles O11: the fetch answers the decoded instruction, no dummy read is refused, and the rest is bookkeeping. -/
theorem stepRunsTheDecodedInstruction : Obligations.StepRunsTheDecodedInstruction := by
  intro s i rest hrunning hpoll hallowed hd hdummy
  have hfetch : s.fetch = .next (i, Spec.fetched i.form.mode.length s.pc s) := by
    refine fetch_of_decode (rest := rest) hallowed ?_
    have hsecond : Spec.addr (s.pc.toNat + 2) = s.pc + 1#16 + 1#16 := by rw [spec_addr_add_two, BitVec.add_assoc]; rfl
    rw [hsecond, spec_addr_succ, fetched_succ, fetched_succ] at hd
    exact hd
  have hunrefused : (Spec.fetched i.form.mode.length s.pc s).pcDummyRefused i = none := by
    rw [pcDummyRefused_eq (readsOnly_fetched _ _ _), List.find?_eq_none]
    exact fun a ha => by simp [hdummy a ha]
  rw [step_of_poll_none hrunning hpoll, runInstruction_of_fetch hfetch, execute_of_allowed hunrefused, commitResult_eq_committed]

end Sys2Proof.Machine
end

section
/-! PROOFS. The two bus fidelities (40_addressing_modes.md R126, R127; 60_exceptions.md R284): the data accesses of each class, and what
`NMOS_DUMMY` refuses. -/

namespace Sys2Proof.Machine

/-! ### Data accesses (R76, R126, R127) -/

theorem readDummy_logical {s : State} (h : s.cfg.busFidelity = .logical) (r : Resolved) : s.readDummy r = r.st := by
  simp [State.readDummy, h]

theorem readDummy_nmos {s : State} (h : s.cfg.busFidelity = .nmosDummy) (r : Resolved) :
    s.readDummy r = if r.cross then r.st.afterRead r.uncorrected else r.st := by
  simp [State.readDummy, h]

theorem writeDummy_logical {s : State} (h : s.cfg.busFidelity = .logical) (m : MemForm) (r : Resolved) : s.writeDummy m r = r.st := by
  simp [State.writeDummy, h]

theorem writeDummy_nmos {s : State} (h : s.cfg.busFidelity = .nmosDummy) (m : MemForm) (r : Resolved) :
    s.writeDummy m r = if indexes16 m then r.st.afterRead r.uncorrected else r.st := by
  simp [State.writeDummy, h]

/-- Settles O28: the dummy read of each fidelity, and from it the operand's reads and the write. -/
theorem dataAccessesOfEachBusFidelity : Obligations.DataAccessesOfEachBusFidelity := by
  intro s m v v'
  have hindexed : (m.mode = .ABSX ∨ m.mode = .ABSY ∨ m.mode = .INDY) ↔ indexes16 m = true := by rw [← mode_indexes16]; simp
  simp only [spec_addr_page, hindexed, State.operandByte, State.afterOperand, State.operandState, State.rmwByte, State.afterRmwRead,
    State.rmwState]
  refine ⟨fun h => ?logical, fun h => ?nmos⟩
  case logical => simp [readDummy_logical h, writeDummy_logical h, State.rmwWrite, h]
  case nmos =>
    simp only [readDummy_nmos h, writeDummy_nmos h]
    refine ⟨fun hc => ?_, fun hc => ?_, fun hi => ?_, fun hi => ?_, by simp [State.rmwWrite, h]⟩
    · simp [hc, Resolved.uncorrected]
    · simp [hc]
    · simp [hi, Resolved.uncorrected]
    · simp [hi]

/-! ### Refusals (R127, R284; log 22) -/

theorem fetchRefused_iff (s : State) (a : Addr) :
    s.fetchRefused a = true ↔ s.cfg.busFidelity = .nmosDummy ∧ s.select a .read = .io := by
  unfold State.fetchRefused
  split <;> simp_all

/-- The pointer of a mode, in the rules' terms (R121, R122). -/
theorem pointerOf_eq_some {s : State} {m : MemForm} {z : Byte} :
    s.pointerOf m = some z ↔ (∃ b, m = .indx b ∧ z = Spec.byte (b.toNat + s.x.toNat)) ∨ m = .indy z := by
  simp only [spec_byte_add]
  cases m <;> simp [State.pointerOf, eq_comm]

theorem pointerRefused_iff {s : State} {m : MemForm} {z : Byte} :
    s.pointerRefused m = some z ↔ s.cfg.busFidelity = .nmosDummy ∧
      ((∃ b, m = .indx b ∧ z = Spec.byte (b.toNat + s.x.toNat)) ∨ m = .indy z) ∧
      (s.select (Spec.addr z.toNat) .read = .io ∨ s.select (Spec.addr ((z.toNat + 1) % 256)) .read = .io) := by
  have hnext : Spec.addr ((z.toNat + 1) % 256) = zext16 (z + 1#8) := spec_addr_add_mod z 1#8
  rw [pointerRefused_some, pointerOf_eq_some, spec_addr_byte, hnext]

/-- No instruction answers the refusal of a dummy read of the program-counter address: the step does, before it. -/
theorem exec_ne_refused_pc (i : Instr) (s : State) (a : Addr) : exec i s ≠ .refused (.ioPcUnderDummy a) := by
  intro h
  rcases exec_refused h with ⟨_, _, _, _, e⟩ | ⟨_, _, e⟩ <;> cases e

section
variable {s : State} (hrunning : s.halted = none) (hpoll : s.poll = none)
include hrunning hpoll

/-- A step refuses a fetch exactly when its fetch is refused. -/
theorem step_refused_fetch {a : Addr} :
    step s = .refused (.ioFetchUnderDummy a) ↔ s.fetch = .refused (.ioFetchUnderDummy a) := by
  rw [step_refused]
  constructor
  · rintro ⟨-, ⟨k, hk, -, -⟩ | ⟨-, hfetch | ⟨i, u, -, ⟨_, -, e⟩ | ⟨-, he⟩⟩⟩⟩
    · cases hpoll.symm.trans hk
    · exact hfetch
    · cases e
    · exact absurd he (exec_ne_refused_fetch i u a)
  · exact fun hfetch => ⟨hrunning, .inr ⟨hpoll, .inl hfetch⟩⟩

/-- A step whose bytes are fetched refuses a dummy read of the program-counter address exactly when its instruction makes one. -/
theorem step_refused_pc {i : Instr} {u : State} (hfetch : s.fetch = .next (i, u)) {a : Addr} :
    step s = .refused (.ioPcUnderDummy a) ↔ u.pcDummyRefused i = some a := by
  rw [step_refused]
  constructor
  · rintro ⟨-, ⟨k, hk, -, -⟩ | ⟨-, hrefused | ⟨j, w, hfetched, ⟨_, hdummy, e⟩ | ⟨-, he⟩⟩⟩⟩
    · cases hpoll.symm.trans hk
    · cases hfetch.symm.trans hrefused
    · cases hfetch.symm.trans hfetched
      cases e
      exact hdummy
    · exact absurd he (exec_ne_refused_pc j w a)
  · exact fun hdummy => ⟨hrunning, .inr ⟨hpoll, .inr ⟨i, u, hfetch, .inl ⟨a, hdummy, rfl⟩⟩⟩⟩

end

/-- The first byte of a fetch in the I/O window, by its address as a number. -/
theorem fetch_refused_iff {s : State} {a : Addr} :
    s.fetch = .refused (.ioFetchUnderDummy a) ↔
      ∃ k, a = Spec.addr (s.pc.toNat + k) ∧ (k = 0 ∨ ∃ n, opcodeLength (s.peek s.pc) = some n ∧ k < n) ∧
        (∀ j, j < k → s.fetchRefused (Spec.addr (s.pc.toNat + j)) = false) ∧ s.fetchRefused a = true := by
  rw [fetch_refused]
  simp only [← spec_addr_add_nat, Refusal.ioFetchUnderDummy.injEq]
  refine exists_congr fun k => and_congr_right fun hk => ?_
  rw [hk]

/-- Settles O29: each refusal by the lemma that says when its operation is refused. -/
theorem nmosDummyRefusesTheIoWindow : Obligations.NmosDummyRefusesTheIoWindow := by
  refine ⟨fun s hrunning hpoll hnmos hio => ?opcode, fetchRefused_iff, fun i m s z hm hmode hnmos hio => ?pointer,
    fun s m h => pointerRefused_logical h m, fun s m z => pointerRefused_iff, fun i s z => exec_refused_pointer,
    fun s a hrunning hpoll => (step_refused_fetch hrunning hpoll).trans fetch_refused_iff, fun s k hrunning hpoll => ?service,
    fun s u i a hrunning hpoll hfetch => ?dummy⟩
  case opcode =>
    have hrefused : s.fetchRefused s.pc = true := (fetchRefused_iff s s.pc).2 ⟨hnmos, hio⟩
    exact (step_refused_fetch hrunning hpoll).2
      (fetch_refused_iff.2 ⟨0, (spec_addr_toNat s.pc).symm, .inl rfl, fun j h => absurd h j.not_lt_zero, hrefused⟩)
  case pointer =>
    refine exec_of_pointerRefused hm (pointerRefused_iff.2 ⟨hnmos, hmode.imp_left fun h => ⟨_, h, ?_⟩, hio⟩)
    rw [spec_byte_add, BitVec.sub_add_cancel]
  case service => simp only [step, hrunning, hpoll, State.takeInterrupt]
  case dummy => rw [step_refused_pc hrunning hpoll hfetch, pcDummyRefused_eq (fetch_readsOnly hfetch)]

end Sys2Proof.Machine
end

section
/-! PROOFS. Decimal arithmetic on BCD bytes (43_arithmetic.md R172, R175, R176): both algorithms work digit by digit, with a carry or a
borrow between the digits. -/

namespace Sys2Proof.Machine

/-- A byte of two decimal digits. -/
theorem isBcd_and_bcd_of_digits {v : Byte} {h l : Nat} (hv : v.toNat = 16 * h + l) (hh : h ≤ 9) (hl : l ≤ 9) :
    Spec.isBcd v ∧ Spec.bcd v = 10 * h + l := by
  unfold Spec.isBcd Spec.bcd
  omega

/-- The low digit of the decimal sum, and its carry `k` into the high one. -/
theorem decimalAddLow_of_bcd {a m : Byte} (c : Bool) (ha : Spec.isBcd a) (hm : Spec.isBcd m) :
    ∃ k l, l ≤ 9 ∧ k ≤ 1 ∧ decimalAddLow a m c = 16 * k + l ∧ a.toNat % 16 + m.toNat % 16 + bitNat c = 10 * k + l := by
  obtain ⟨hal, -⟩ := ha
  obtain ⟨hml, -⟩ := hm
  have hc := bitNat_le_one c
  unfold decimalAddLow
  by_cases hk : 10 ≤ a.toNat % 16 + m.toNat % 16 + bitNat c
  · exact ⟨1, a.toNat % 16 + m.toNat % 16 + bitNat c - 10, by omega, by omega, by rw [if_pos hk]; omega, by omega⟩
  · exact ⟨0, a.toNat % 16 + m.toNat % 16 + bitNat c, by omega, by omega, by rw [if_neg hk]; omega, by omega⟩

/-- The decimal sum: its high digit takes the low one's carry, and carries out in turn. -/
theorem decimalAdd_of_bcd {a m : Byte} (p : Flags) (ha : Spec.isBcd a) (hm : Spec.isBcd m) :
    Spec.isBcd (decimalAdd a m p).1 ∧
      Spec.bcd (decimalAdd a m p).1 + 100 * Spec.num (decimalAdd a m p).2.c = Spec.bcd a + Spec.bcd m + Spec.num p.c := by
  obtain ⟨k, l, hl, hk, hlow, hsum⟩ := decimalAddLow_of_bcd p.c ha hm
  obtain ⟨-, hah⟩ := ha
  obtain ⟨-, hmh⟩ := hm
  have ht : decimalAddSum a m p.c = 16 * (a.toNat / 16 + m.toNat / 16 + k) + l := by
    rw [decimalAddSum, hlow]; omega
  by_cases hcarry : 10 ≤ a.toNat / 16 + m.toNat / 16 + k
  · have hv : (decimalAdd a m p).1.toNat = 16 * (a.toNat / 16 + m.toNat / 16 + k - 10) + l := by
      simp only [decimalAdd, ht, BitVec.toNat_ofNat]
      rw [if_pos (by omega)]; omega
    have hout : (decimalAdd a m p).2.c = true := by
      simp only [decimalAdd, ht, decide_eq_true_eq]
      rw [if_pos (by omega)]; omega
    obtain ⟨hbcd, hnum⟩ := isBcd_and_bcd_of_digits hv (by omega) hl
    refine ⟨hbcd, ?_⟩
    rw [hnum, hout, num_eq_bitNat, num_eq_bitNat, Spec.bcd, Spec.bcd, show bitNat true = 1 from rfl]
    omega
  · have hv : (decimalAdd a m p).1.toNat = 16 * (a.toNat / 16 + m.toNat / 16 + k) + l := by
      simp only [decimalAdd, ht, BitVec.toNat_ofNat]
      rw [if_neg (by omega)]; omega
    have hout : (decimalAdd a m p).2.c = false := by
      simp only [decimalAdd, ht, decide_eq_false_iff_not]
      rw [if_neg (by omega)]; omega
    obtain ⟨hbcd, hnum⟩ := isBcd_and_bcd_of_digits hv (by omega) hl
    refine ⟨hbcd, ?_⟩
    rw [hnum, hout, num_eq_bitNat, num_eq_bitNat, Spec.bcd, Spec.bcd, show bitNat false = 0 from rfl]
    omega

/-- The low digit of the decimal difference, and its borrow `k` from the high one. -/
theorem decimalSubLow_of_bcd {a m : Byte} (c : Bool) (ha : Spec.isBcd a) (hm : Spec.isBcd m) :
    ∃ k l : Nat, l ≤ 9 ∧ k ≤ 1 ∧ decimalSubLow a m c = (l : Int) - 16 * k ∧
      a.toNat % 16 + 10 * k + bitNat c = l + m.toNat % 16 + 1 := by
  obtain ⟨hal, -⟩ := ha
  obtain ⟨hml, -⟩ := hm
  have hc := bitNat_le_one c
  unfold decimalSubLow
  by_cases hk : a.toNat % 16 + bitNat c < m.toNat % 16 + 1
  · refine ⟨1, a.toNat % 16 + 10 + bitNat c - m.toNat % 16 - 1, by omega, by omega, ?_, by omega⟩
    simp only
    rw [if_pos (by omega)]
    omega
  · refine ⟨0, a.toNat % 16 + bitNat c - m.toNat % 16 - 1, by omega, by omega, ?_, by omega⟩
    simp only
    rw [if_neg (by omega)]
    omega

/-- The carry of a subtraction is the absence of a borrow, in decimal mode too (R174, R175). -/
theorem decimalSub_carry (a m : Byte) (p : Flags) :
    (decimalSub a m p).2.c = decide (m.toNat + 1 ≤ a.toNat + bitNat p.c) := by
  have hm := m.isLt
  simp only [decimalSub, binarySub, complement_toNat, decide_eq_decide]
  omega

/-- The decimal difference: its high digit takes the low one's borrow, and borrows in turn. -/
theorem decimalSub_of_bcd {a m : Byte} (p : Flags) (ha : Spec.isBcd a) (hm : Spec.isBcd m) :
    Spec.isBcd (decimalSub a m p).1 ∧
      Spec.bcd (decimalSub a m p).1 + Spec.bcd m + (1 - Spec.num p.c) =
        Spec.bcd a + 100 * (1 - Spec.num (decimalSub a m p).2.c) := by
  have hc := bitNat_le_one p.c
  obtain ⟨k, l, hl, hk, hlow, hdiff⟩ := decimalSubLow_of_bcd p.c ha hm
  obtain ⟨-, hah⟩ := ha
  obtain ⟨-, hmh⟩ := hm
  by_cases hborrow : a.toNat / 16 < m.toNat / 16 + k
  · have hv : (decimalSub a m p).1.toNat = 16 * (a.toNat / 16 + 10 - m.toNat / 16 - k) + l := by
      simp only [decimalSub, decimalSubValue, hlow, BitVec.toNat_ofInt]
      rw [if_pos (by omega)]; omega
    have hout : (decimalSub a m p).2.c = false := by
      rw [decimalSub_carry, decide_eq_false_iff_not]; omega
    obtain ⟨hbcd, hnum⟩ := isBcd_and_bcd_of_digits hv (by omega) hl
    refine ⟨hbcd, ?_⟩
    rw [hnum, hout, num_eq_bitNat, num_eq_bitNat, Spec.bcd, Spec.bcd, show bitNat false = 0 from rfl]
    omega
  · have hv : (decimalSub a m p).1.toNat = 16 * (a.toNat / 16 - m.toNat / 16 - k) + l := by
      simp only [decimalSub, decimalSubValue, hlow, BitVec.toNat_ofInt]
      rw [if_neg (by omega)]; omega
    have hout : (decimalSub a m p).2.c = true := by
      rw [decimalSub_carry, decide_eq_true_eq]; omega
    obtain ⟨hbcd, hnum⟩ := isBcd_and_bcd_of_digits hv (by omega) hl
    refine ⟨hbcd, ?_⟩
    rw [hnum, hout, num_eq_bitNat, num_eq_bitNat, Spec.bcd, Spec.bcd, show bitNat true = 1 from rfl]
    omega

/-- Settles O38, digit by digit for both algorithms. -/
theorem decimalArithmeticIsDecimal : Obligations.DecimalArithmeticIsDecimal := by
  intro a m p ha hm
  obtain ⟨hAdd, hSum⟩ := decimalAdd_of_bcd p ha hm
  obtain ⟨hSub, hDiff⟩ := decimalSub_of_bcd p ha hm
  exact ⟨hAdd, hSum, hSub, hDiff⟩

end Sys2Proof.Machine
end

section
/-! PROOFS. Pacing (60_exceptions.md R288): a tick either grants a batch and keeps the state, or is the core's step. So a paced run and
an unpaced one differ in the number of ticks only. -/

namespace Sys2Proof.Machine

/-- What a paced run says of the machine, the pacer's credit aside. -/
def uncredited : Host.Outcome (Int × State) Fault Refusal → Host.Outcome State Fault Refusal
  | .next (_, t) => .next t
  | .fault f => .fault f
  | .refused r => .refused r

theorem uncredited_next {o : Host.Outcome (Int × State) Fault Refusal} {t : State} :
    uncredited o = .next t ↔ ∃ c, o = .next (c, t) := by
  cases o <;> simp [uncredited, Prod.ext_iff]

theorem uncredited_fault {o : Host.Outcome (Int × State) Fault Refusal} {f : Fault} : uncredited o = .fault f ↔ o = .fault f := by
  cases o <;> simp [uncredited]

theorem uncredited_refused {o : Host.Outcome (Int × State) Fault Refusal} {r : Refusal} :
    uncredited o = .refused r ↔ o = .refused r := by
  cases o <;> simp [uncredited]

/-- The core takes a step in the next tick: nothing holds it up, or there is credit left. -/
def Ready (credit : Int) (s : State) : Prop := s.cfg.throttle = false ∨ 0 < credit

theorem pacedTick_waits {credit : Int} {s : State} (ht : s.cfg.throttle = true) (hc : credit ≤ 0) :
    pacedTick credit s = .next (credit + s.cfg.pacerBatch.val, s) := by
  simp [pacedTick, ht, hc]

theorem not_waiting_of_ready {credit : Int} {s : State} (h : Ready credit s) :
    ¬ (s.cfg.throttle && decide (credit ≤ 0)) = true := by
  rcases h with h | h <;> simp [h]

theorem pacedTick_next {credit : Int} {s t : State} (h : Ready credit s) (hs : step s = .next t) :
    pacedTick credit s = .next (credit - ((t.cycles : Int) - s.cycles), t) := by
  rw [pacedTick, if_neg (not_waiting_of_ready h), hs]

theorem pacedTick_fault {credit : Int} {s : State} {f : Fault} (h : Ready credit s) (hs : step s = .fault f) :
    pacedTick credit s = .fault f := by
  rw [pacedTick, if_neg (not_waiting_of_ready h), hs]

theorem pacedTick_refused {credit : Int} {s : State} {r : Refusal} (h : Ready credit s) (hs : step s = .refused r) :
    pacedTick credit s = .refused r := by
  rw [pacedTick, if_neg (not_waiting_of_ready h), hs]

theorem pacedRun_of_tick_next {c c' : Int} {s t : State} (h : pacedTick c s = .next (c', t)) (k : Nat) :
    pacedRun (k + 1) c s = pacedRun k c' t := by
  rw [pacedRun, h]

theorem pacedRun_of_tick_fault {c : Int} {s : State} {f : Fault} (h : pacedTick c s = .fault f) (k : Nat) :
    pacedRun (k + 1) c s = .fault f := by
  rw [pacedRun, h]

theorem pacedRun_of_tick_refused {c : Int} {s : State} {r : Refusal} (h : pacedTick c s = .refused r) (k : Nat) :
    pacedRun (k + 1) c s = .refused r := by
  rw [pacedRun, h]

theorem core_run_of_step_next {s t : State} (h : step s = .next t) (k : Nat) : core.run (k + 1) s = core.run k t := by
  have hs : core.step s = .next t := h
  simp only [Host.Core.run, hs]

theorem core_run_of_step_fault {s : State} {f : Fault} (h : step s = .fault f) (k : Nat) : core.run (k + 1) s = .fault f := by
  have hs : core.step s = .fault f := h
  simp only [Host.Core.run, hs]

theorem core_run_of_step_refused {s : State} {r : Refusal} (h : step s = .refused r) (k : Nat) :
    core.run (k + 1) s = .refused r := by
  have hs : core.step s = .refused r := h
  simp only [Host.Core.run, hs]

/-- A run of `m` ticks that goes on, then `n` more. -/
theorem pacedRun_add {m : Nat} : ∀ {c c' : Int} {s t : State}, pacedRun m c s = .next (c', t) →
    ∀ n, pacedRun (m + n) c s = pacedRun n c' t := by
  induction m with
  | zero =>
    intro c c' s t h n
    cases h
    rw [Nat.zero_add]
  | succ m ih =>
    intro c c' s t h n
    rw [Nat.add_right_comm]
    cases htick : pacedTick c s with
    | next q =>
      rw [pacedRun_of_tick_next htick] at h ⊢
      exact ih h n
    | fault f => rw [pacedRun_of_tick_fault htick] at h; cases h
    | refused r => rw [pacedRun_of_tick_refused htick] at h; cases h

/-- With the throttle on, enough batches give credit, and they keep the state: each is at least one cycle. -/
theorem pacedRun_grants {s : State} (ht : s.cfg.throttle = true) (d : Nat) : ∀ credit : Int, 0 < credit + d →
    ∃ n : Nat, 0 < credit + n * s.cfg.pacerBatch.val ∧ pacedRun n credit s = .next (credit + n * s.cfg.pacerBatch.val, s) := by
  have hbatch := s.cfg.pacerBatch.property
  induction d with
  | zero => exact fun credit h => ⟨0, by omega, by simp [pacedRun]⟩
  | succ d ih =>
    intro credit h
    by_cases hc : 0 < credit
    · exact ⟨0, by omega, by simp [pacedRun]⟩
    · obtain ⟨n, hpos, hrun⟩ := ih (credit + s.cfg.pacerBatch.val) (by omega)
      have hsum : credit + s.cfg.pacerBatch.val + n * s.cfg.pacerBatch.val = credit + (n + 1 : Nat) * s.cfg.pacerBatch.val := by
        push_cast; ring
      rw [hsum] at hpos hrun
      exact ⟨n + 1, hpos, (pacedRun_of_tick_next (pacedTick_waits ht (by omega)) n).trans hrun⟩

/-- From every credit, finitely many ticks that keep the state make the core ready. -/
theorem pacedRun_to_ready (credit : Int) (s : State) : ∃ n c, pacedRun n credit s = .next (c, s) ∧ Ready c s := by
  cases ht : s.cfg.throttle with
  | false => exact ⟨0, credit, rfl, .inl ht⟩
  | true =>
    obtain ⟨n, hpos, hrun⟩ := pacedRun_grants ht (1 - credit).toNat credit (by omega)
    exact ⟨n, _, hrun, .inr hpos⟩

/-- Every unpaced run is a paced one of some number of ticks, at least as many. -/
theorem pacedRun_of_core_run (k : Nat) : ∀ (credit : Int) (s : State),
    ∃ n, k ≤ n ∧ uncredited (pacedRun n credit s) = core.run k s := by
  induction k with
  | zero => exact fun credit s => ⟨0, le_refl 0, rfl⟩
  | succ k ih =>
    intro credit s
    obtain ⟨w, c, hwait, hready⟩ := pacedRun_to_ready credit s
    cases hs : step s with
    | next t =>
      obtain ⟨n, hn, hrun⟩ := ih (c - ((t.cycles : Int) - s.cycles)) t
      refine ⟨w + (n + 1), by omega, ?_⟩
      rw [pacedRun_add hwait, pacedRun_of_tick_next (pacedTick_next hready hs), core_run_of_step_next hs, hrun]
    | fault f =>
      refine ⟨w + (k + 1), by omega, ?_⟩
      rw [pacedRun_add hwait, pacedRun_of_tick_fault (pacedTick_fault hready hs), core_run_of_step_fault hs]
      rfl
    | refused r =>
      refine ⟨w + (k + 1), by omega, ?_⟩
      rw [pacedRun_add hwait, pacedRun_of_tick_refused (pacedTick_refused hready hs), core_run_of_step_refused hs]
      rfl

/-- Every paced run is an unpaced one of at most as many steps; without the throttle, of exactly as many. -/
theorem core_run_of_pacedRun (k : Nat) : ∀ (credit : Int) (s : State),
    ∃ n, n ≤ k ∧ core.run n s = uncredited (pacedRun k credit s) ∧ (s.cfg.throttle = false → n = k) := by
  induction k with
  | zero => exact fun credit s => ⟨0, le_refl 0, rfl, fun _ => rfl⟩
  | succ k ih =>
    intro credit s
    by_cases hready : Ready credit s
    · cases hs : step s with
      | next t =>
        obtain ⟨n, hn, hrun, hexact⟩ := ih (credit - ((t.cycles : Int) - s.cycles)) t
        refine ⟨n + 1, by omega, ?_, fun h => ?_⟩
        · rw [pacedRun_of_tick_next (pacedTick_next hready hs), core_run_of_step_next hs, hrun]
        · rw [hexact (by rw [(keepsUnreachable_step hs).cfg_eq, h])]
      | fault f =>
        refine ⟨k + 1, le_refl _, ?_, fun _ => rfl⟩
        rw [pacedRun_of_tick_fault (pacedTick_fault hready hs), core_run_of_step_fault hs]
        rfl
      | refused r =>
        refine ⟨k + 1, le_refl _, ?_, fun _ => rfl⟩
        rw [pacedRun_of_tick_refused (pacedTick_refused hready hs), core_run_of_step_refused hs]
        rfl
    · obtain ⟨hthrottle, hcredit⟩ := not_or.1 hready
      have htick := pacedTick_waits (Bool.eq_true_of_not_eq_false hthrottle) (Int.not_lt.1 hcredit)
      obtain ⟨n, hn, hrun, -⟩ := ih (credit + s.cfg.pacerBatch.val) s
      exact ⟨n, by omega, by rw [hrun, pacedRun_of_tick_next htick], fun h => absurd h hthrottle⟩

/-- Settles O57: paced and unpaced runs go through the same states. -/
theorem pacingChangesNoState : Obligations.PacingChangesNoState := by
  intro k credit s
  obtain ⟨m, hm, hpaced⟩ := pacedRun_of_core_run k credit s
  obtain ⟨n, hn, hcore, hexact⟩ := core_run_of_pacedRun k credit s
  refine ⟨pacedTick_waits, fun hready => ?_, fun ht => pacedRun_grants ht (1 - credit).toNat credit (by omega), fun t h => ?_,
    fun f h => ?_, fun r h => ?_, fun c t h => ⟨n, hn, hcore.trans (uncredited_next.2 ⟨c, h⟩)⟩,
    fun f h => ⟨n, hn, hcore.trans (uncredited_fault.2 h)⟩, fun r h => ⟨n, hn, hcore.trans (uncredited_refused.2 h)⟩, fun ht c t h => ?_⟩
  · exact ⟨fun _ => pacedTick_next hready, fun _ => pacedTick_fault hready, fun _ => pacedTick_refused hready⟩
  · obtain ⟨c, hc⟩ := uncredited_next.1 (hpaced.trans h)
    exact ⟨m, c, hm, hc⟩
  · exact ⟨m, uncredited_fault.1 (hpaced.trans h)⟩
  · exact ⟨m, uncredited_refused.1 (hpaced.trans h)⟩
  · exact hexact ht ▸ hcore.trans (uncredited_next.2 ⟨c, h⟩)

end Sys2Proof.Machine
end
